-- ==== Sys2Proof/Word.lean ====
section
/-! DEFINITION. The words the block moves: command words, port data, register numbers. -/

namespace Sys2Proof

/-- A 16-bit command word (R60). -/
abbrev CommandWord := BitVec 16

/-- The 48-bit data of a port transaction (R42). -/
abbrev PortData := BitVec 48

/-- The 5-bit number that names one whole register (R40). -/
abbrev RegNumber := BitVec 5

end Sys2Proof
end

