-- ==== Sys2Proof/Config.lean ====
section
/-! DEFINITION. The parameters of the block that its builder or its source leaves open: the chip family, the
Si570 exclusion table, the out-of-domain results, and the value a register shows before anything wrote it. -/

namespace Sys2Proof

/-- The chip family a block is built for (R5). -/
inductive Family where
  | si570
  | si549
deriving DecidableEq, Repr

/-- The four Si570 chip grades of the source (R6, R23). -/
inductive Grade where
  | a
  | b
  | c
  | d
deriving DecidableEq, Repr

namespace Config

/-- The HS_DIV values of the Si570 (R101); 8 and 10 are not among them. -/
abbrev LegalHsDiv (hs : Nat) : Prop :=
  hs = 11 ∨ hs = 9 ∨ hs = 7 ∨ hs = 6 ∨ hs = 5 ∨ hs = 4

/-- The N1 values of the Si570 (R25, R31): 1, or an even number from 2 to 128. -/
abbrev LegalN1 (n1 : Nat) : Prop :=
  n1 = 1 ∨ (2 ≤ n1 ∧ n1 ≤ 128 ∧ n1 % 2 = 0)

/-- Every legal pair that `p` excludes, `q` excludes too (the inclusion of R6, over the pairs `EXCL` is defined on). -/
def ExcludesWithin (p q : Nat → Nat → Bool) : Prop :=
  ∀ n1 hs, LegalN1 n1 → LegalHsDiv hs → p n1 hs = true → q n1 hs = true

/-- Some legal pair is excluded by `q` and not by `p` (what makes an inclusion of R6 strict). -/
def ExcludesMore (p q : Nat → Nat → Bool) : Prop :=
  ∃ n1 hs, LegalN1 n1 ∧ LegalHsDiv hs ∧ p n1 hs = false ∧ q n1 hs = true

/-- The strict inclusion of R6 (b), over the legal pairs (DEDUCED, log 8): `p` lies within `q`, and `q` excludes more. -/
def StrictlyWithin (p q : Nat → Nat → Bool) : Prop := ExcludesWithin p q ∧ ExcludesMore p q

/-- The exclusion lists of grades B, C and D with the constraints R6 puts on them, and no others.
Grade A has no list: it excludes nothing. -/
structure ExclTable where
  /-- The pairs `(n1, hs)` forbidden for grade B. -/
  gradeB : Nat → Nat → Bool
  /-- The pairs forbidden for grade C. -/
  gradeC : Nat → Nat → Bool
  /-- The pairs forbidden for grade D. -/
  gradeD : Nat → Nat → Bool
  /-- R6 (b): the empty list of grade A lies strictly inside that of grade B. -/
  a_in_b : StrictlyWithin (fun _ _ => false) gradeB
  /-- R6 (b): the empty list of grade A lies strictly inside that of grade D. -/
  a_in_d : StrictlyWithin (fun _ _ => false) gradeD
  /-- R6 (b): B lies strictly inside C. -/
  b_in_c : StrictlyWithin gradeB gradeC
  /-- R6 (b): D lies strictly inside C. -/
  d_in_c : StrictlyWithin gradeD gradeC
  /-- R6 (b): the four sets are strictly nested, B and D among them; which contains the other is not stated
  (DEDUCED, log 8). -/
  b_d_nested : StrictlyWithin gradeB gradeD ∨ StrictlyWithin gradeD gradeB
  /-- R6 (c): the one entry the source names. -/
  c_excludes_1_4 : gradeC 1 4 = true

/-- A table that meets R6: the proof that R6 can be met, needed to declare `exclTable`. Nothing else is
read off it: it is NOT the table of the build, which stays unknown. -/
def exclTableSample : ExclTable :=
   { gradeB := fun n1 hs => n1 == 1 && hs == 5
     gradeC := fun n1 hs => n1 == 1 && (hs == 4 || (hs == 5 || hs == 6))
     gradeD := fun n1 hs => n1 == 1 && (hs == 5 || hs == 6)
     a_in_b := ⟨fun _ _ _ _ h => (Bool.false_ne_true h).elim, 1, 5, by decide, by decide, rfl, rfl⟩
     a_in_d := ⟨fun _ _ _ _ h => (Bool.false_ne_true h).elim, 1, 5, by decide, by decide, rfl, rfl⟩
     b_in_c := ⟨by intro n1 hs _ _ h; simp at h; simp [h], 1, 4, by decide, by decide, rfl, rfl⟩
     d_in_c := ⟨by intro n1 hs _ _ h; simp at h; simp [h], 1, 4, by decide, by decide, rfl, rfl⟩
     b_d_nested := .inl ⟨by intro n1 hs _ _ h; simp at h; simp [h], 1, 6, by decide, by decide, rfl, rfl⟩
     c_excludes_1_4 := rfl }

/-- The parameter `EXCL` of R6, as the table of one build. It has no body, so nothing is known of it but the
constraints that its type carries; the bracketed argument only says that such a table exists. -/
opaque exclTable [Inhabited ExclTable] : ExclTable

/-- The exclusion table of the build. -/
def builtTable : ExclTable := @exclTable ⟨exclTableSample⟩

/-- `EXCL(g, n1, hs)` (R6): may grade `g` not use the pair? Grade A excludes nothing (R6 a, R107) and grade C
excludes (1, 4) (R6 c); every other answer is the open table's. -/
def excl (g : Grade) (n1 hs : Nat) : Bool :=
  match g with
  | .a => false
  | .b => builtTable.gradeB n1 hs
  | .c => (n1 == 1 && hs == 4) || builtTable.gradeC n1 hs
  | .d => builtTable.gradeD n1 hs

/-- `DIVW_OOD` of R7 and R85: the unspecified 48-bit result of a divide outside its domain, a function of the
operands alone. Free value: no body, log 9. -/
opaque divwOod (x : BitVec 48) (d : BitVec 32) (f : BitVec 6) : BitVec 48

/-- `S549DIV_OOD` of R7 and R122: the unspecified `(HSDIV, LSDIV)` for a target below 0.125 MHz. Free value: no
body, log 9. -/
opaque s549DivOod (freq : BitVec 32) (dcoMin : BitVec 16) : BitVec 16 × BitVec 3

/-- `FBDIV_OOD` of R7 and R126: the unspecified FBDIV for a divider product of 2^16 or more. Free value: no body,
log 9. -/
opaque fbdivOod (freq xtal : BitVec 32) (hsDiv : BitVec 16) (lsDiv : BitVec 3) : BitVec 43

/-- What a register of width `w` shows while it holds no value (R35): an unspecified value of its width, for the
register numbered `reg`, drawn afresh at each position `position` of the host's program. Free value: no body, log 6. -/
opaque unwrittenValue (w : Nat) (reg : RegNumber) (position : Nat) : BitVec w

end Config
end Sys2Proof
end

