-- ==== Sys2Proof/Syntax.lean ====
section
/-! DEFINITION. The instructions of the block: the six commands of `spec/opcode_table.json`, one constructor a row. -/

namespace Sys2Proof

/-- The commands of R63. Every operand but the shift of `divw` is implicit: each command reads fixed registers (R62). -/
inductive Instr where
  /-- MULW, the wide multiply (R81). -/
  | mulw
  /-- DIVW f, the wide divide with fractional shift `f`, 0 to 63 (R83). -/
  | divw (f : BitVec 6)
  /-- S570FIND, the Si570 divider search (R104). -/
  | s570find
  /-- S570RFREQ, the Si570 reference-frequency computation (R105). -/
  | s570rfreq
  /-- S549DIV, the Si549 dividers (R120). -/
  | s549div
  /-- S549FBDIV, the Si549 feedback divider (R125). -/
  | s549fbdiv
deriving DecidableEq, Repr

end Sys2Proof
end

