-- ==== Sys2Proof/WellFormed.lean ====
section
/-! DEFINITION. Which instructions are well formed. An `Instr` has no ill-formed field (its one immediate is a 6-bit
word, R62); the one check left is that the command exists in the build (R5, R66). -/

namespace Sys2Proof

/-- The family column of the opcode map (R63): the one family that has the command, or `none` for both. -/
def Instr.onlyFamily : Instr → Option Family
  | .mulw => none
  | .divw _ => none
  | .s570find => some .si570
  | .s570rfreq => some .si570
  | .s549div => some .si549
  | .s549fbdiv => some .si549

/-- `i` is a command of a build for `fam` (R5, R63, R66). -/
abbrev Instr.WellFormed (fam : Family) (i : Instr) : Prop :=
  i.onlyFamily = none ∨ i.onlyFamily = some fam

end Sys2Proof
end

