-- ==== Sys2Proof/Decode.lean ====
section
/-! DEFINITION. The command word: its fields, the decoder of R64, total on all 2^16 words, and the encoder of R63. -/

namespace Sys2Proof

/-- Field Z, bits 15:10, zero in every command (R61). -/
def fieldZ (w : CommandWord) : BitVec 6 := w.extractLsb' 10 6

/-- Field F, bits 9:4, the unsigned fractional shift of DIVW (R61, R62). -/
def fieldF (w : CommandWord) : BitVec 6 := w.extractLsb' 4 6

/-- Field OP, bits 3:0, the opcode (R61). -/
def fieldOp (w : CommandWord) : BitVec 4 := w.extractLsb' 0 4

/-- Why a word is no command of a build: the four cases of R65. The block itself records none of them. -/
inductive IllegalWord where
  /-- `Z ≠ 0`. -/
  | zNotZero
  /-- `F ≠ 0` with `OP ≠ 2`. -/
  | fNotZero
  /-- `OP` is assigned in no build. -/
  | opUnassigned
  /-- `OP` belongs to the family that this build lacks (R66). -/
  | absentFamily
deriving DecidableEq, Repr

/-- What decoding a word gives: a command of the build, or the name of the reason that there is none. -/
inductive Decoded where
  | command (i : Instr)
  | illegal (why : IllegalWord)
deriving DecidableEq, Repr

/-- A command of one family, in a build of family `fam` (R66). -/
def decodeFor (fam need : Family) (i : Instr) : Decoded :=
  if fam = need then .command i else .illegal .absentFamily

/-- The decoding algorithm of R64. -/
def decodeCommand (fam : Family) (w : CommandWord) : Decoded :=
  if fieldZ w ≠ 0 then .illegal .zNotZero
  else if fieldOp w = 0x2 then .command (.divw (fieldF w))
  else if fieldF w ≠ 0 then .illegal .fNotZero
  else if fieldOp w = 0x1 then .command .mulw
  else if fieldOp w = 0x4 then decodeFor fam .si570 .s570find
  else if fieldOp w = 0x5 then decodeFor fam .si570 .s570rfreq
  else if fieldOp w = 0x8 then decodeFor fam .si549 .s549div
  else if fieldOp w = 0x9 then decodeFor fam .si549 .s549fbdiv
  else .illegal .opUnassigned

/-- The command that a word encodes in a build, if any. -/
def Decoded.instr? : Decoded → Option Instr
  | .command i => some i
  | .illegal _ => none

/-- The command that `w` encodes in a build for `fam`, or nothing where R64 calls `w` illegal. -/
def decode (fam : Family) (w : CommandWord) : Option Instr :=
  (decodeCommand fam w).instr?

/-- Opcode of each command (R63). -/
def Instr.opcode : Instr → BitVec 4
  | .mulw => 0x1
  | .divw _ => 0x2
  | .s570find => 0x4
  | .s570rfreq => 0x5
  | .s549div => 0x8
  | .s549fbdiv => 0x9

/-- Field F of each command: the shift for DIVW, 0 for every other (R61). -/
def Instr.shiftField : Instr → BitVec 6
  | .divw f => f
  | .mulw => 0
  | .s570find => 0
  | .s570rfreq => 0
  | .s549div => 0
  | .s549fbdiv => 0

/-- The command word of a command: format CW of R61, `000000 ffffff oooo`. -/
def encode (i : Instr) : CommandWord :=
  (0#6 ++ i.shiftField) ++ i.opcode

/-- The build that has the command of `w` (log 4): `fam` itself where it has one, else the other family. -/
def familyFor (fam : Family) (w : CommandWord) : Family :=
  match decode fam w with
  | some _ => fam
  | none =>
    match decode .si570 w with
    | some _ => .si570
    | none =>
      match decode .si549 w with
      | some _ => .si549
      | none => fam

/-- The low `nbits` bits of `w`, as a command word (the block has one word length, R60, and no byte order, R50). -/
def tableWord (nbits w : Nat) : CommandWord :=
  BitVec.ofNat 16 (w % 2 ^ nbits)

/-- The instruction the decoder reads from a word of the opcode table, in the build that has it. -/
def decodeTableWord (nbits w : Nat) : Option Instr :=
  decode (familyFor .si570 (tableWord nbits w)) (tableWord nbits w)

end Sys2Proof
end

