-- ==== Sys2Proof/Machine/State.lean ====
section
/-! DEFINITION. The state of the block (R10): its registers, and beside them the build's family and the host's port.
Plain data throughout. -/

namespace Sys2Proof.Machine

/-- The twenty registers of R10, by name. -/
inductive Reg where
  | cmd | status
  | a | b | x | d | p | q
  | freq | xtal | dcoMin | dcoMax | grade
  | s570HsDiv | s570N1 | s570N | s570Rfreq
  | s549HsDiv | s549LsDiv | s549FbDiv
deriving DecidableEq, Repr

/-- The host's access right to a register (R10). -/
inductive Access where
  /-- The host reads and writes it. -/
  | rw
  /-- The host reads it, only a command writes it. -/
  | ro
  /-- A host write has an effect, a host read returns zero. -/
  | wo
deriving DecidableEq, Repr

/-- Why a command failed (R141). -/
inductive Cause where
  /-- `NODIV`: no HS_DIV value has a valid candidate. -/
  | noDiv
  /-- `DCOHI`: the DCO would exceed DCOMAX. -/
  | dcoHi
deriving DecidableEq, Repr

/-- A register of `w` bits that may hold no value (R10, R35). -/
structure Register (w : Nat) where
  /-- The word. It means something only where `held` is true. -/
  word : BitVec w
  /-- Does the register hold a value: has it been written since reset (R35, R161)? -/
  held : Bool
deriving DecidableEq, Repr

/-- No value, as after reset (R35). The word beside it is 0: DESIGN CHOICE, unsafe, log 5. -/
def Register.noValue {w : Nat} : Register w := { word := 0, held := false }

/-- A register that holds `v`. -/
def Register.holding {w : Nat} (v : BitVec w) : Register w := { word := v, held := true }

/-- The wide multiply and divide registers (10_state.md section 3). -/
structure WideRegs where
  /-- A, R13. -/
  a : Register 32
  /-- B, R14. -/
  b : Register 16
  /-- X, R15. -/
  x : Register 48
  /-- D, R16. -/
  d : Register 32
  /-- P, R17. -/
  p : Register 48
  /-- Q, R18. -/
  q : Register 48
deriving DecidableEq, Repr

/-- The configuration operand registers (10_state.md section 4). -/
structure SetupRegs where
  /-- FREQ, R19. -/
  freq : Register 32
  /-- XTAL, R20. -/
  xtal : Register 32
  /-- DCOMIN, R21. -/
  dcoMin : Register 16
  /-- DCOMAX, R22. -/
  dcoMax : Register 16
  /-- GRADE, R23. -/
  grade : Register 2
deriving DecidableEq, Repr

/-- The Si570 result registers (10_state.md section 5), present in an SI570 build. -/
structure Si570Regs where
  /-- S570_HS_DIV, R24. -/
  hsDiv : Register 4
  /-- S570_N1, R25. -/
  n1 : Register 8
  /-- S570_N, R26. -/
  n : Register 16
  /-- S570_RFREQ, R27. -/
  rfreq : Register 38
deriving DecidableEq, Repr

/-- The Si549 result registers (10_state.md section 6), present in an SI549 build. -/
structure Si549Regs where
  /-- S549_HSDIV, R28. -/
  hsDiv : Register 16
  /-- S549_LSDIV, R29. -/
  lsDiv : Register 3
  /-- S549_FBDIV, R30. -/
  fbDiv : Register 43
deriving DecidableEq, Repr

/-- What the outside does to the block, one at a time: the two transactions of R42, and the reset of R160. -/
inductive HostEvent where
  /-- `MemWrite`: 48-bit data to a register number. -/
  | write (reg : RegNumber) (data : PortData)
  /-- `MemRead` of a register number. -/
  | read (reg : RegNumber)
  /-- A reset, which may occur only between transactions (log 11). -/
  | reset
deriving DecidableEq, Repr

/-- The host's side of the port. The model's own fields, not state of the block (R33, R168; log 1, log 3, log 15). -/
structure HostPort where
  /-- The events still to come, the next one first. -/
  pending : List HostEvent
  /-- How many events have been issued: the program position of R33, at which free values are drawn. -/
  issued : Nat
  /-- The data that reads have returned, the oldest first: the observation of R168. -/
  returned : List PortData
deriving DecidableEq, Repr

/-- The state of the machine. -/
structure State where
  /-- The family the block was built for (R5): a parameter, which no step changes (log 4). -/
  family : Family
  /-- STATUS, R12. -/
  status : BitVec 8
  /-- A, B, X, D, P, Q. -/
  wide : WideRegs
  /-- FREQ, XTAL, DCOMIN, DCOMAX, GRADE. -/
  setup : SetupRegs
  /-- The `S570_*` registers. -/
  s570 : Si570Regs
  /-- The `S549_*` registers. -/
  s549 : Si549Regs
  /-- What the host will do, and what it has read. -/
  port : HostPort
deriving DecidableEq, Repr

/-- The faults of the block: none. R140: "no command traps", and every transaction completes. -/
inductive Fault where
deriving DecidableEq, Repr

/-- Why the model declines to run an instruction. -/
inductive Refusal where
  /-- Raised by an arm of `exec` whose instruction has no meaning yet, and by nothing else. Safe: the run stops.
  No arm raises it: every command has its meaning. -/
  | notModelled (mnemonic : String)
deriving DecidableEq, Repr

/-- The outcome of one step of this machine. -/
abbrev StepOutcome := Host.Outcome State Fault Refusal

/-- The state after reset of a block built for `fam` (R35, R160): STATUS is 0x00, no other register holds a value,
and the host has issued nothing. -/
def State.resetFor (fam : Family) : State where
  family := fam
  status := 0x00
  wide := { a := .noValue, b := .noValue, x := .noValue, d := .noValue, p := .noValue, q := .noValue }
  setup := { freq := .noValue, xtal := .noValue, dcoMin := .noValue, dcoMax := .noValue, grade := .noValue }
  s570 := { hsDiv := .noValue, n1 := .noValue, n := .noValue, rfreq := .noValue }
  s549 := { hsDiv := .noValue, lsDiv := .noValue, fbDiv := .noValue }
  port := { pending := [], issued := 0, returned := [] }

/-- The machine right after reset. The family is a parameter of the build (R5); SI570 here is a DESIGN CHOICE,
log 4, and `State.resetFor` gives the other. -/
def State.reset : State := State.resetFor .si570

end Sys2Proof.Machine
end

