-- ==== Sys2Proof/Machine/Arith.lean ====
section
/-! DEFINITION. The two pure functions of WideArith (R80, R82, R85), which all commands share, on exact integers. -/

namespace Sys2Proof.Machine

/-- `mulw(a, b)` (R80): the exact product, which always fits 48 bits. -/
def mulw (a : BitVec 32) (b : BitVec 16) : BitVec 48 :=
  BitVec.ofNat 48 (a.toNat * b.toNat)

/-- `⌊x · 2^f / d⌋`, the quotient of R82 as an exact integer; the shift loses no bit of `x` (R86). -/
def wideQuotient (x : BitVec 48) (d : BitVec 32) (f : BitVec 6) : Nat :=
  x.toNat * 2 ^ f.toNat / d.toNat

/-- The domain of `divw` (R82): the divisor is not 0 and the quotient fits 48 bits. -/
abbrev DivwDomain (x : BitVec 48) (d : BitVec 32) (f : BitVec 6) : Prop :=
  d ≠ 0 ∧ wideQuotient x d f < 2 ^ 48

/-- `divw_total(x, d, f)` (R85): the floor quotient in the domain, an unspecified value outside it. -/
def divwTotal (x : BitVec 48) (d : BitVec 32) (f : BitVec 6) : BitVec 48 :=
  if DivwDomain x d f then BitVec.ofNat 48 (wideQuotient x d f) else Config.divwOod x d f

/-- `⌈n / d⌉` for `d ≠ 0`, by checking the remainder (R102, R121). -/
def ceilDiv (n d : Nat) : Nat :=
  n / d + if n % d = 0 then 0 else 1

end Sys2Proof.Machine
end

