-- ==== Sys2Proof/Machine/Flags.lean ====
section
/-! DEFINITION. The fields of STATUS (R12) and the four words that it ever holds. -/

namespace Sys2Proof.Machine

/-- The code of a failure cause (R141), bits 3:2 of STATUS. -/
def Cause.code : Cause → BitVec 2
  | .noDiv => 1
  | .dcoHi => 2

/-- A STATUS word from its fields (R12): bits 7:4 are 0, then CAUSE, ILL and FAIL. -/
def statusWord (fail ill : Bool) (cause : BitVec 2) : BitVec 8 :=
  ((0#4 ++ cause) ++ BitVec.ofBool ill) ++ BitVec.ofBool fail

/-- The command completed: 0x00. -/
def statusDone : BitVec 8 := statusWord false false 0

/-- The last word written to CMD encoded no command of this build: 0x02 (R142). -/
def statusIllegal : BitVec 8 := statusWord false true 0

/-- The command ended with `raise Fail(cause)`: 0x05 or 0x09 (R141). -/
def statusFailed (cause : Cause) : BitVec 8 := statusWord true false cause.code

/-- Bit FAIL of STATUS. -/
def statusFail (status : BitVec 8) : Bool := status.getLsbD 0

/-- Bit ILL of STATUS. -/
def statusIll (status : BitVec 8) : Bool := status.getLsbD 1

/-- Field CAUSE of STATUS. -/
def statusCause (status : BitVec 8) : BitVec 2 := status.extractLsb' 2 2

end Sys2Proof.Machine
end

