-- ==== Sys2Proof/Machine/Ops.lean ====
section
/-! DEFINITION. The named operations over the registers: the register map, reading and writing a register, the host's
access to one, how a command ends (completing, failing, being illegal), and reset. -/

namespace Sys2Proof.Machine

/-! ### The register map (R10, R41) -/

/-- The number of a register. -/
def Reg.number : Reg → RegNumber
  | .cmd => 0x00
  | .status => 0x01
  | .a => 0x02
  | .b => 0x03
  | .x => 0x04
  | .d => 0x05
  | .p => 0x06
  | .q => 0x07
  | .freq => 0x08
  | .xtal => 0x09
  | .dcoMin => 0x0A
  | .dcoMax => 0x0B
  | .grade => 0x0C
  | .s570HsDiv => 0x10
  | .s570N1 => 0x11
  | .s570N => 0x12
  | .s570Rfreq => 0x13
  | .s549HsDiv => 0x18
  | .s549LsDiv => 0x19
  | .s549FbDiv => 0x1A

/-- The width of a register in bits. -/
def Reg.width : Reg → Nat
  | .cmd => 16
  | .status => 8
  | .a => 32
  | .b => 16
  | .x => 48
  | .d => 32
  | .p => 48
  | .q => 48
  | .freq => 32
  | .xtal => 32
  | .dcoMin => 16
  | .dcoMax => 16
  | .grade => 2
  | .s570HsDiv => 4
  | .s570N1 => 8
  | .s570N => 16
  | .s570Rfreq => 38
  | .s549HsDiv => 16
  | .s549LsDiv => 3
  | .s549FbDiv => 43

/-- The host's access right to a register. -/
def Reg.access : Reg → Access
  | .cmd => .wo
  | .a | .b | .x | .d | .freq | .xtal | .dcoMin | .dcoMax | .grade => .rw
  | .status | .p | .q | .s570HsDiv | .s570N1 | .s570N | .s570Rfreq | .s549HsDiv | .s549LsDiv | .s549FbDiv => .ro

/-- Does the register exist in a build for `fam` (R5, R10)? -/
def Reg.presentIn (fam : Family) : Reg → Bool
  | .s570HsDiv | .s570N1 | .s570N | .s570Rfreq => fam == .si570
  | .s549HsDiv | .s549LsDiv | .s549FbDiv => fam == .si549
  | .cmd | .status | .a | .b | .x | .d | .p | .q | .freq | .xtal | .dcoMin | .dcoMax | .grade => true

/-- All twenty registers, in the order of their numbers. -/
def allRegs : List Reg :=
  [.cmd, .status, .a, .b, .x, .d, .p, .q, .freq, .xtal, .dcoMin, .dcoMax, .grade,
   .s570HsDiv, .s570N1, .s570N, .s570Rfreq, .s549HsDiv, .s549LsDiv, .s549FbDiv]

/-- The register that a number maps to in a build for `fam`; nothing where the number is unmapped (R41). -/
def regAt (fam : Family) (n : RegNumber) : Option Reg :=
  allRegs.find? fun r => r.presentIn fam && r.number == n

/-! ### Reading a register -/

/-- What reading the register named `name` gives at a position of the host's program: the value it holds, or, while
it holds none, an unspecified value of its width (R35; log 6, log 7). -/
def Register.shown {w : Nat} (reg : Register w) (name : Reg) (position : Nat) : BitVec w :=
  if reg.held then reg.word else Config.unwrittenValue w name.number position

/-- The data of a host read of a register (R44): its value, zero-extended to 48 bits. CMD stores nothing and reads as
0 (R11). -/
def State.data (s : State) : Reg → PortData
  | .cmd => 0
  | .status => s.status.setWidth 48
  | .a => (s.wide.a.shown .a s.port.issued).setWidth 48
  | .b => (s.wide.b.shown .b s.port.issued).setWidth 48
  | .x => (s.wide.x.shown .x s.port.issued).setWidth 48
  | .d => (s.wide.d.shown .d s.port.issued).setWidth 48
  | .p => (s.wide.p.shown .p s.port.issued).setWidth 48
  | .q => (s.wide.q.shown .q s.port.issued).setWidth 48
  | .freq => (s.setup.freq.shown .freq s.port.issued).setWidth 48
  | .xtal => (s.setup.xtal.shown .xtal s.port.issued).setWidth 48
  | .dcoMin => (s.setup.dcoMin.shown .dcoMin s.port.issued).setWidth 48
  | .dcoMax => (s.setup.dcoMax.shown .dcoMax s.port.issued).setWidth 48
  | .grade => (s.setup.grade.shown .grade s.port.issued).setWidth 48
  | .s570HsDiv => (s.s570.hsDiv.shown .s570HsDiv s.port.issued).setWidth 48
  | .s570N1 => (s.s570.n1.shown .s570N1 s.port.issued).setWidth 48
  | .s570N => (s.s570.n.shown .s570N s.port.issued).setWidth 48
  | .s570Rfreq => (s.s570.rfreq.shown .s570Rfreq s.port.issued).setWidth 48
  | .s549HsDiv => (s.s549.hsDiv.shown .s549HsDiv s.port.issued).setWidth 48
  | .s549LsDiv => (s.s549.lsDiv.shown .s549LsDiv s.port.issued).setWidth 48
  | .s549FbDiv => (s.s549.fbDiv.shown .s549FbDiv s.port.issued).setWidth 48

/-- Does the register hold a value (R35)? STATUS always does; CMD stores nothing, and its read is always defined. -/
def State.holds (s : State) : Reg → Bool
  | .cmd => true
  | .status => true
  | .a => s.wide.a.held
  | .b => s.wide.b.held
  | .x => s.wide.x.held
  | .d => s.wide.d.held
  | .p => s.wide.p.held
  | .q => s.wide.q.held
  | .freq => s.setup.freq.held
  | .xtal => s.setup.xtal.held
  | .dcoMin => s.setup.dcoMin.held
  | .dcoMax => s.setup.dcoMax.held
  | .grade => s.setup.grade.held
  | .s570HsDiv => s.s570.hsDiv.held
  | .s570N1 => s.s570.n1.held
  | .s570N => s.s570.n.held
  | .s570Rfreq => s.s570.rfreq.held
  | .s549HsDiv => s.s549.hsDiv.held
  | .s549LsDiv => s.s549.lsDiv.held
  | .s549FbDiv => s.s549.fbDiv.held

/-- The data of a host read of register number `n` (R44): 0 where `n` is unmapped. -/
def State.portData (s : State) (n : RegNumber) : PortData :=
  match regAt s.family n with
  | some r => s.data r
  | none => 0

/-! ### Writing a register -/

/-- A host write of data to a register that is not CMD (R43): an RW register takes the low bits of the data, as many
as it is wide; a write to any other is ignored. -/
def State.hostWrite (s : State) (r : Reg) (data : PortData) : State :=
  match r with
  | .a => { s with wide := { s.wide with a := .holding (data.setWidth 32) } }
  | .b => { s with wide := { s.wide with b := .holding (data.setWidth 16) } }
  | .x => { s with wide := { s.wide with x := .holding (data.setWidth 48) } }
  | .d => { s with wide := { s.wide with d := .holding (data.setWidth 32) } }
  | .freq => { s with setup := { s.setup with freq := .holding (data.setWidth 32) } }
  | .xtal => { s with setup := { s.setup with xtal := .holding (data.setWidth 32) } }
  | .dcoMin => { s with setup := { s.setup with dcoMin := .holding (data.setWidth 16) } }
  | .dcoMax => { s with setup := { s.setup with dcoMax := .holding (data.setWidth 16) } }
  | .grade => { s with setup := { s.setup with grade := .holding (data.setWidth 2) } }
  | .cmd | .status | .p | .q | .s570HsDiv | .s570N1 | .s570N | .s570Rfreq | .s549HsDiv | .s549LsDiv | .s549FbDiv => s

/-- A command's write of P (R17). -/
def State.writeP (s : State) (v : BitVec 48) : State :=
  { s with wide := { s.wide with p := .holding v } }

/-- A command's write of Q (R18). -/
def State.writeQ (s : State) (v : BitVec 48) : State :=
  { s with wide := { s.wide with q := .holding v } }

/-- A command's write of the cached divider solution, its three registers together (R24 to R26). -/
def State.writeSolution (s : State) (hsDiv : BitVec 4) (n1 : BitVec 8) (n : BitVec 16) : State :=
  { s with s570 := { s.s570 with hsDiv := .holding hsDiv, n1 := .holding n1, n := .holding n } }

/-- A command's write of S570_RFREQ (R27). -/
def State.writeRfreq (s : State) (v : BitVec 38) : State :=
  { s with s570 := { s.s570 with rfreq := .holding v } }

/-- A command's write of S549_HSDIV and S549_LSDIV, together (R28, R29). -/
def State.writeS549Dividers (s : State) (hsDiv : BitVec 16) (lsDiv : BitVec 3) : State :=
  { s with s549 := { s.s549 with hsDiv := .holding hsDiv, lsDiv := .holding lsDiv } }

/-- A command's write of S549_FBDIV (R30). -/
def State.writeFbDiv (s : State) (v : BitVec 43) : State :=
  { s with s549 := { s.s549 with fbDiv := .holding v } }

/-! ### How a command ends -/

/-- A write of STATUS (R12): all eight bits. -/
def State.setStatus (s : State) (v : BitVec 8) : State := { s with status := v }

/-- The command completed: `STATUS <- 0x00`. -/
def State.complete (s : State) : State := s.setStatus statusDone

/-- `raise Fail(cause)` (R141, R145): STATUS is written and nothing else; no control is transferred, and there is
nothing to return from (R146). -/
def State.raiseFail (s : State) (cause : Cause) : State := s.setStatus (statusFailed cause)

/-- An illegal command (R65, R142): `STATUS <- 0x02`, and nothing else. -/
def State.illegalCommand (s : State) : State := s.setStatus statusIllegal

/-- A command that only a build for `fam` has (R66): in the other build its word is illegal (log 10). -/
def State.onlyIn (s : State) (fam : Family) (run : State → State) : State :=
  if s.family = fam then run s else s.illegalCommand

/-! ### The host's side -/

/-- The host issues its next event: `rest` is what is left, and the position advances by one (R33). -/
def State.issue (s : State) (rest : List HostEvent) : State :=
  { s with port := { s.port with pending := rest, issued := s.port.issued + 1 } }

/-- A read returns its data to the host, and changes nothing of the block (R44). -/
def State.returnData (s : State) (data : PortData) : State :=
  { s with port := { s.port with returned := s.port.returned ++ [data] } }

/-- Reset (R160): STATUS is 0x00 and every other register holds no value; the family is not affected, and the host
goes on where it was. -/
def State.blockReset (s : State) : State :=
  { State.resetFor s.family with port := s.port }

end Sys2Proof.Machine
end

