-- ==== Sys2Proof/Machine/Operands.lean ====
section
/-! DEFINITION. The operands of the commands. All but the shift of DIVW are fixed registers (R62), each read whole and
once, at the command's start (R45). -/

namespace Sys2Proof.Machine

/-- Operand A of MULW (R13). -/
def State.opA (s : State) : BitVec 32 := s.wide.a.shown .a s.port.issued

/-- Operand B of MULW (R14). -/
def State.opB (s : State) : BitVec 16 := s.wide.b.shown .b s.port.issued

/-- Operand X of DIVW (R15). -/
def State.opX (s : State) : BitVec 48 := s.wide.x.shown .x s.port.issued

/-- Operand D of DIVW (R16). -/
def State.opD (s : State) : BitVec 32 := s.wide.d.shown .d s.port.issued

/-- Operand FREQ, in [11.21] MHz (R19). -/
def State.opFreq (s : State) : BitVec 32 := s.setup.freq.shown .freq s.port.issued

/-- Operand XTAL, in [8.24] MHz (R20). -/
def State.opXtal (s : State) : BitVec 32 := s.setup.xtal.shown .xtal s.port.issued

/-- Operand DCOMIN, in whole MHz (R21). -/
def State.opDcoMin (s : State) : BitVec 16 := s.setup.dcoMin.shown .dcoMin s.port.issued

/-- Operand DCOMAX, in whole MHz (R22). -/
def State.opDcoMax (s : State) : BitVec 16 := s.setup.dcoMax.shown .dcoMax s.port.issued

/-- The grade that a GRADE code names (R23). -/
def gradeOfCode (code : BitVec 2) : Grade :=
  if code = 0 then .a else if code = 1 then .b else if code = 2 then .c else .d

/-- Operand GRADE (R23). -/
def State.opGrade (s : State) : Grade := gradeOfCode (s.setup.grade.shown .grade s.port.issued)

/-- Operand S570_N, the cached divider product (R26). -/
def State.opS570N (s : State) : BitVec 16 := s.s570.n.shown .s570N s.port.issued

/-- Operand S549_HSDIV (R28). -/
def State.opHsDiv (s : State) : BitVec 16 := s.s549.hsDiv.shown .s549HsDiv s.port.issued

/-- Operand S549_LSDIV (R29). -/
def State.opLsDiv (s : State) : BitVec 3 := s.s549.lsDiv.shown .s549LsDiv s.port.issued

end Sys2Proof.Machine
end

