-- ==== Sys2Proof/Machine/Si549.lean ====
section
/-! DEFINITION. S549DIV and S549FBDIV (42_si549.md). -/

namespace Sys2Proof.Machine

/-- `den` of R121: the high word of FREQ shifted right by 2, the target frequency in [11.3] MHz. -/
def s549Den (freq : BitVec 32) : Nat := (freq.extractLsb' 16 16).toNat / 2 ^ 2

/-- `num` of R121: DCOMIN shifted left by 3, in [16.3] MHz. -/
def s549Num (dcoMin : BitVec 16) : Nat := dcoMin.toNat * 2 ^ 3

/-- The total divider `t` of R121, for `den ≠ 0`. -/
def totalDivider (freq : BitVec 32) (dcoMin : BitVec 16) : Nat :=
  ceilDiv (s549Num dcoMin) (s549Den freq)

/-- LSDIV from the total divider (R123): 0 below 2046, else the largest `k ≤ 5` with `2046 · 2^k ≤ t`. -/
def lsDivOf (t : Nat) : Nat :=
  if t < 2046 then 0 else min 5 (Nat.log2 (t / 2046))

/-- HSDIV from the total divider (R123): only even values from 34 on, while LSDIV is 0. -/
def hsDivOf (t : Nat) : Nat :=
  let ls := lsDivOf t
  let h := t / 2 ^ ls
  if ls = 0 ∧ h ≥ 34 ∧ h % 2 = 1 then h + 1 else h

/-- The pair `(S549_HSDIV, S549_LSDIV)` for a target and a DCO limit (R120): the rule's in its domain, an unspecified
pair where `den = 0` (R122). -/
def s549Dividers (freq : BitVec 32) (dcoMin : BitVec 16) : BitVec 16 × BitVec 3 :=
  if s549Den freq = 0 then Config.s549DivOod freq dcoMin
  else (BitVec.ofNat 16 (hsDivOf (totalDivider freq dcoMin)), BitVec.ofNat 3 (lsDivOf (totalDivider freq dcoMin)))

/-- The effect of S549DIV in a build that has it (R120). -/
def runS549div (s : State) : State :=
  let r := s549Dividers s.opFreq s.opDcoMin
  (s.writeS549Dividers r.1 r.2).complete

/-- S549DIV (R120). -/
def execS549div (s : State) : StepOutcome :=
  .next (s.onlyIn .si549 runS549div)

/-- The total divider product `HSDIV · 2^LSDIV` of R125, an exact integer of up to 23 bits. -/
def dividerProduct (hsDiv : BitVec 16) (lsDiv : BitVec 3) : Nat :=
  hsDiv.toNat * 2 ^ lsDiv.toNat

/-- FBDIV (R125): the low 43 bits of the quotient, or an unspecified value where the divider product is wider than
16 bits (R126). -/
def fbdivValue (freq xtal : BitVec 32) (hsDiv : BitVec 16) (lsDiv : BitVec 3) : BitVec 43 :=
  if dividerProduct hsDiv lsDiv ≥ 2 ^ 16 then Config.fbdivOod freq xtal hsDiv lsDiv
  else (divwTotal (mulw freq (BitVec.ofNat 16 (dividerProduct hsDiv lsDiv))) xtal 35#6).setWidth 43

/-- The effect of S549FBDIV in a build that has it (R125). -/
def runFbdiv (s : State) : State :=
  (s.writeFbDiv (fbdivValue s.opFreq s.opXtal s.opHsDiv s.opLsDiv)).complete

/-- S549FBDIV (R125). -/
def execS549fbdiv (s : State) : StepOutcome :=
  .next (s.onlyIn .si549 runFbdiv)

end Sys2Proof.Machine
end

