-- ==== Sys2Proof/Machine/Si570.lean ====
section
/-! DEFINITION. S570FIND and S570RFREQ (41_si570.md). All comparisons are on exact integers (R100). -/

namespace Sys2Proof.Machine

/-- A whole number of MHz in the unit of a [27.21] product: times 2^21 (R100). -/
def mhz (v : BitVec 16) : Nat := v.toNat * 2 ^ 21

/-- The HS_DIV values, in the order they are tried (R101). -/
def hsDivOrder : List Nat := [11, 9, 7, 6, 5, 4]

/-- The least legal N1 not below `n`, for `n ≥ 1`: 1, or the next even number (R102). -/
def roundN1 (n : Nat) : Nat :=
  if n > 1 ∧ n % 2 = 1 then n + 1 else n

/-- `cand(hs)` (R102): the one candidate N1 for an HS_DIV value; none for a target frequency of 0. -/
def cand (freq : BitVec 32) (dcoMin : BitVec 16) (hs : Nat) : Option Nat :=
  if freq = 0 then none
  else some (roundN1 (max 1 (ceilDiv (mhz dcoMin) (freq.toNat * hs))))

/-- The operands of the divider search (R104). -/
structure FindOperands where
  freq : BitVec 32
  dcoMin : BitVec 16
  dcoMax : BitVec 16
  grade : Grade
deriving DecidableEq, Repr

/-- A divider solution: N1 and HS_DIV as plain values. -/
structure Solution where
  n1 : Nat
  hsDiv : Nat
deriving DecidableEq, Repr

/-- `N1 × HS_DIV`. -/
def Solution.product (sol : Solution) : Nat := sol.n1 * sol.hsDiv

/-- Is candidate `n` for `hs` valid (R103)? `EXCL` is asked last. -/
def candidateOk (o : FindOperands) (hs n : Nat) : Bool :=
  decide (n ≤ 128) && decide (o.freq.toNat * n * hs ≤ mhz o.dcoMax) && !Config.excl o.grade n hs

/-- The valid candidate for `hs`, if there is one (R102, R103). -/
def validCand (o : FindOperands) (hs : Nat) : Option Solution :=
  match cand o.freq o.dcoMin hs with
  | none => none
  | some n => if candidateOk o hs n then some { n1 := n, hsDiv := hs } else none

/-- One turn of the search of R104: a valid candidate replaces the best so far only if its product is strictly
smaller, so that the first wins a tie. -/
def keepBetter (o : FindOperands) (best : Option Solution) (hs : Nat) : Option Solution :=
  match validCand o hs, best with
  | none, _ => best
  | some c, none => some c
  | some c, some b => if c.product < b.product then some c else some b

/-- The search of R104 over all HS_DIV values. -/
def findDivider (o : FindOperands) : Option Solution :=
  hsDivOrder.foldl (keepBetter o) none

/-- The operands that S570FIND reads. -/
def State.findOperands (s : State) : FindOperands :=
  { freq := s.opFreq, dcoMin := s.opDcoMin, dcoMax := s.opDcoMax, grade := s.opGrade }

/-- The effect of S570FIND in a build that has it (R104): on success the three result registers and STATUS, on failure
STATUS alone. -/
def runFind (s : State) : State :=
  match findDivider s.findOperands with
  | none => s.raiseFail .noDiv
  | some sol =>
    (s.writeSolution (BitVec.ofNat 4 sol.hsDiv) (BitVec.ofNat 8 sol.n1) (BitVec.ofNat 16 sol.product)).complete

/-- S570FIND (R104). -/
def execS570find (s : State) : StepOutcome :=
  .next (s.onlyIn .si570 runFind)

/-- The effect of S570RFREQ in a build that has it (R105): the DCO test comes before the divide; bits 47:38 of the
quotient are dropped. -/
def runRfreq (s : State) : State :=
  let p := mulw s.opFreq s.opS570N
  if p.toNat > mhz s.opDcoMax then s.raiseFail .dcoHi
  else (s.writeRfreq ((divwTotal p s.opXtal 31#6).setWidth 38)).complete

/-- S570RFREQ (R105). -/
def execS570rfreq (s : State) : StepOutcome :=
  .next (s.onlyIn .si570 runRfreq)

end Sys2Proof.Machine
end

