-- ==== Sys2Proof/Machine/WideArith.lean ====
section
/-! DEFINITION. MULW and DIVW (40_widearith.md). -/

namespace Sys2Proof.Machine

/-- MULW (R81). -/
def execMulw (s : State) : StepOutcome :=
  .next (s.writeP (mulw s.opA s.opB)).complete

/-- DIVW f (R83): STATUS is 0x00 in and out of the domain. -/
def execDivw (f : BitVec 6) (s : State) : StepOutcome :=
  .next (s.writeQ (divwTotal s.opX s.opD f)).complete

end Sys2Proof.Machine
end

