-- ==== Sys2Proof/Machine/Dispatch.lean ====
section
/-! DEFINITION. One arm per command. -/

namespace Sys2Proof.Machine

def exec (i : Instr) (s : State) : Host.Outcome State Fault Refusal :=
  match i with
  | .mulw => Sys2Proof.Machine.execMulw s
  | .divw f => Sys2Proof.Machine.execDivw f s
  | .s570find => Sys2Proof.Machine.execS570find s
  | .s570rfreq => Sys2Proof.Machine.execS570rfreq s
  | .s549div => Sys2Proof.Machine.execS549div s
  | .s549fbdiv => Sys2Proof.Machine.execS549fbdiv s

end Sys2Proof.Machine
end

