-- ==== Sys2Proof/Machine/Port.lean ====
section
/-! DEFINITION. The host port: what one host event does to the block (R42 to R47, R160). -/

namespace Sys2Proof.Machine

/-- The command word carried by a write to CMD: data bits 15:0; bits 47:16 are ignored (R60). -/
def commandWordOf (data : PortData) : CommandWord := data.setWidth 16

/-- The data that carries a command word, its high bits 0 (R68). -/
def dataOfCommand (w : CommandWord) : PortData := w.setWidth 48

/-- A write to CMD (R46): the word is decoded and the whole command is executed; a word that encodes no command of the
build is illegal, and reads no register (R144). -/
def runCommandWord (w : CommandWord) (s : State) : StepOutcome :=
  match decodeCommand s.family w with
  | .command i => exec i s
  | .illegal _ => .next s.illegalCommand

/-- `MemWrite` (R43). -/
def portWrite (n : RegNumber) (data : PortData) (s : State) : StepOutcome :=
  match regAt s.family n with
  | some .cmd => runCommandWord (commandWordOf data) s
  | some r => .next (s.hostWrite r data)
  | none => .next s

/-- `MemRead` (R44): the data goes back to the host, and nothing of the block changes. -/
def portRead (n : RegNumber) (s : State) : StepOutcome :=
  .next (s.returnData (s.portData n))

/-- One host event, as one atomic step (R45 to R47). -/
def perform (e : HostEvent) (s : State) : StepOutcome :=
  match e with
  | .write n data => portWrite n data s
  | .read n => portRead n s
  | .reset => .next s.blockReset

/-- The host's next event, and the state in which it is issued; none where the host has nothing left to do. -/
def nextEvent (s : State) : Option (HostEvent × State) :=
  match s.port.pending with
  | [] => none
  | e :: rest => some (e, s.issue rest)

/-- The state in which the host's very next event is a write of the command word `w` to CMD, in the build that has
that command (log 1, log 4). -/
def State.withCommand (s : State) (w : CommandWord) : State :=
  { s with
    family := familyFor s.family w
    port := { s.port with pending := .write Reg.cmd.number (dataOfCommand w) :: s.port.pending } }

end Sys2Proof.Machine
end

