-- ==== Sys2Proof/Machine/Step.lean ====
section
/-! DEFINITION. One step of the machine: the host's next event, performed to completion. -/

namespace Sys2Proof.Machine

/-- One step (R46, R47, R168). With no event left the run is over, and the block idles: it never halts (log 2). -/
def step (s : State) : Host.Outcome State Fault Refusal :=
  match nextEvent s with
  | none => .next s
  | some (e, issued) => perform e issued

/-- `s` with the command word `w` of the opcode table as the host's next write to CMD, where step takes its next
command from (log 1), and with the build's family set to one that has the command (log 4). -/
def State.withFetchWord (s : State) (nbits w : Nat) : State :=
  s.withCommand (tableWord nbits w)

end Sys2Proof.Machine
end

