-- ==== Sys2Proof/Machine/Assembler.lean ====
section
/-! DEFINITION. The assembler syntax of R68: eight line forms, each one host transaction. There are no
pseudo-instructions (R69). -/

namespace Sys2Proof.Machine

/-- A line of a host program (R68). Numbers are as written, of any size. -/
inductive Line where
  | wr (reg : Reg) (value : Nat)
  | rd (reg : Reg)
  | mulw
  | divw (f : Nat)
  | s570find
  | s570rfreq
  | s549div
  | s549fbdiv
deriving DecidableEq, Repr

/-- A command line is a write of its word to CMD (R68). -/
def commandWrite (w : Nat) : HostEvent := .write Reg.cmd.number (BitVec.ofNat 48 w)

/-- The transaction of a line, for a build of a family; nothing where the assembler rejects the line (R68): a name that
does not exist in the build, a value of 2^48 or more, a shift above 63. The command lines of the other family are not
rejected: their words are illegal in the build (R66). -/
def assemble (fam : Family) : Line → Option HostEvent
  | .wr reg value =>
    if reg.presentIn fam = true ∧ value < 2 ^ 48 then some (.write reg.number (BitVec.ofNat 48 value)) else none
  | .rd reg => if reg.presentIn fam = true then some (.read reg.number) else none
  | .mulw => some (commandWrite 0x0001)
  | .divw f => if f ≤ 63 then some (commandWrite (0x0002 + 16 * f)) else none
  | .s570find => some (commandWrite 0x0004)
  | .s570rfreq => some (commandWrite 0x0005)
  | .s549div => some (commandWrite 0x0008)
  | .s549fbdiv => some (commandWrite 0x0009)

end Sys2Proof.Machine
end

