-- ==== Sys2Proof/Machine/Reference.lean ====
section
/-! DEFINITION. The shift-and-add and restoring-division loops of 40_widearith.md section 4. The spec calls them
informative (R88: only the results are architectural); no command uses them. Statements say that they compute `mulw`
and, in its domain, `divw`. -/

namespace Sys2Proof.Machine

/-- `mulw_ref`: 16 turns of shift and add, in 48 bits. -/
def mulwRef (a : BitVec 32) (b : BitVec 16) : BitVec 48 :=
  (List.range 16).foldl (fun p i => if b.getLsbD i then p + (a.setWidth 48 <<< i) else p) 0

/-- The registers of `divw_ref`: a 33-bit remainder and a 48-bit quotient. -/
structure DivRefState where
  rem : BitVec 33
  q : BitVec 48
deriving DecidableEq, Repr

/-- One turn of `divw_ref` with the next bit of `x · 2^f`. -/
def divRefTurn (d : BitVec 32) (bit : Bool) (st : DivRefState) : DivRefState :=
  let rem := (st.rem <<< 1) ||| (BitVec.ofBool bit).setWidth 33
  let q := st.q <<< 1
  if d.setWidth 33 ≤ rem then { rem := rem - d.setWidth 33, q := q ||| 1 } else { rem := rem, q := q }

/-- The turns `i = n - 1` down to `0` of `divw_ref`. -/
def divRefLoop (x : BitVec 48) (d : BitVec 32) (f : Nat) : Nat → DivRefState → DivRefState
  | 0, st => st
  | n + 1, st => divRefLoop x d f n (divRefTurn d (decide (f ≤ n) && x.getLsbD (n - f)) st)

/-- `divw_ref`: 48 + f turns, most significant bit first. -/
def divwRef (x : BitVec 48) (d : BitVec 32) (f : BitVec 6) : BitVec 48 :=
  (divRefLoop x d f.toNat (48 + f.toNat) { rem := 0, q := 0 }).q

end Sys2Proof.Machine
end

