-- ==== Sys2Proof/Safety.lean ====
section
/-! DEFINITION. What claims about runs of the block are stated with: the launch premises of a command (R162), its
domain (R163), and the invariant of the state (R5, R12, R31, R35). -/

namespace Sys2Proof.Machine

/-- The registers that a command reads (R36, R162). -/
def operandsOf : Instr → List Reg
  | .mulw => [.a, .b]
  | .divw _ => [.x, .d]
  | .s570find => [.freq, .dcoMin, .dcoMax, .grade]
  | .s570rfreq => [.freq, .s570N, .xtal, .dcoMax]
  | .s549div => [.freq, .dcoMin]
  | .s549fbdiv => [.freq, .s549HsDiv, .s549LsDiv, .xtal]

/-- The registers, other than STATUS, that a command may write (R36). -/
def resultsOf : Instr → List Reg
  | .mulw => [.p]
  | .divw _ => [.q]
  | .s570find => [.s570HsDiv, .s570N1, .s570N]
  | .s570rfreq => [.s570Rfreq]
  | .s549div => [.s549HsDiv, .s549LsDiv]
  | .s549fbdiv => [.s549FbDiv]

/-- The boot requirement of a command (R162): every register it reads holds a value. -/
def OperandsHeld (i : Instr) (s : State) : Prop :=
  ∀ r ∈ operandsOf i, s.holds r = true

/-- The width budget of a command (R163): its operands lie in the domain, so that its result is a defined value. The
two Si570 commands' own failures are defined outcomes and no part of it. -/
def InDomain : Instr → State → Prop
  | .mulw, _ => True
  | .divw f, s => DivwDomain s.opX s.opD f
  | .s570find, _ => True
  | .s570rfreq, s => DivwDomain (mulw s.opFreq s.opS570N) s.opXtal 31#6
  | .s549div, s => s549Den s.opFreq ≠ 0
  | .s549fbdiv, s =>
    dividerProduct s.opHsDiv s.opLsDiv < 2 ^ 16 ∧
      DivwDomain (mulw s.opFreq (BitVec.ofNat 16 (dividerProduct s.opHsDiv s.opLsDiv))) s.opXtal 35#6

/-- STATUS holds one of the four values of R12. -/
def StatusLegal (s : State) : Prop :=
  s.status = 0x00 ∨ s.status = 0x02 ∨ s.status = 0x05 ∨ s.status = 0x09

/-- The invariant of R31: the cached solution is absent as a whole, or a legal pair with its product. -/
def SolutionLegal (s : State) : Prop :=
  (s.s570.hsDiv.held = false ∧ s.s570.n1.held = false ∧ s.s570.n.held = false) ∨
  ((s.s570.hsDiv.held = true ∧ s.s570.n1.held = true ∧ s.s570.n.held = true) ∧
    Config.LegalHsDiv s.s570.hsDiv.word.toNat ∧ Config.LegalN1 s.s570.n1.word.toNat ∧
    s.s570.n.word.toNat = s.s570.n1.word.toNat * s.s570.hsDiv.word.toNat)

/-- The invariant of the block's state: R31, and the values of STATUS of R12. -/
structure BlockInv (s : State) : Prop where
  /-- R12. -/
  status : StatusLegal s
  /-- R31. -/
  solution : SolutionLegal s

/-- The word stored for a register, as a number. It is the register's value where `State.holds` says that it holds one;
CMD stores nothing. -/
def State.stored (s : State) : Reg → Nat
  | .cmd => 0
  | .status => s.status.toNat
  | .a => s.wide.a.word.toNat
  | .b => s.wide.b.word.toNat
  | .x => s.wide.x.word.toNat
  | .d => s.wide.d.word.toNat
  | .p => s.wide.p.word.toNat
  | .q => s.wide.q.word.toNat
  | .freq => s.setup.freq.word.toNat
  | .xtal => s.setup.xtal.word.toNat
  | .dcoMin => s.setup.dcoMin.word.toNat
  | .dcoMax => s.setup.dcoMax.word.toNat
  | .grade => s.setup.grade.word.toNat
  | .s570HsDiv => s.s570.hsDiv.word.toNat
  | .s570N1 => s.s570.n1.word.toNat
  | .s570N => s.s570.n.word.toNat
  | .s570Rfreq => s.s570.rfreq.word.toNat
  | .s549HsDiv => s.s549.hsDiv.word.toNat
  | .s549LsDiv => s.s549.lsDiv.word.toNat
  | .s549FbDiv => s.s549.fbDiv.word.toNat

/-- The model's own invariant (log 4, log 5): a register of the family that the build lacks holds no value, and a
register that holds no value has the one word 0 beside it, so that equal contents are equal data. -/
def StorageCanonical (s : State) : Prop :=
  ∀ r : Reg, (r.presentIn s.family = false → s.holds r = false) ∧ (s.holds r = false → s.stored r = 0)

/-- The register `r` is the same in both states: holds a value in both or in neither, and the same one. -/
def SameRegister (s t : State) (r : Reg) : Prop :=
  t.holds r = s.holds r ∧ t.stored r = s.stored r

/-- All registers other than STATUS are the same in both states (the precision of R145). -/
def SameRegisters (s t : State) : Prop :=
  t.wide = s.wide ∧ t.setup = s.setup ∧ t.s570 = s.s570 ∧ t.s549 = s.s549

/-- An operand `v` that a command takes from the register named `name`, which is in the condition `reg`, at a position
of the host's program: the value held, or the free value where none is held (R35, log 6, log 7). -/
def TakenFrom {w : Nat} (v : BitVec w) (reg : Register w) (name : Reg) (position : Nat) : Prop :=
  (reg.held = true → v = reg.word) ∧
  (reg.held = false → v = Config.unwrittenValue w name.number position)

/-- Does a write to CMD of the word write the register `r`? STATUS always (R12), and, where the step it takes from `s`
completes, the registers on the command's result list (R36). -/
def commandWrites (s : State) (word : CommandWord) (r : Reg) : Bool :=
  r == .status ||
    match decode s.family word, step s with
    | some i, .next t => (resultsOf i).contains r && t.status == 0x00
    | _, _ => false

/-- Does the host's next event write the register `r`, or is it a reset? A host write does to an RW register (R43), a
command as `commandWrites` says, a read never (R44). -/
def nextEventWrites (s : State) (r : Reg) : Bool :=
  match s.port.pending with
  | .reset :: _ => true
  | .write n data :: _ =>
    (regAt s.family n == some r && r.access == .rw) || (n == 0x00 && commandWrites s (data.setWidth 16) r)
  | .read _ :: _ => false
  | [] => false

/-- All that is not a register is the same in both states: the family (log 4) and the host's side (log 1, log 3, log 15). -/
def SameOutside (s t : State) : Prop :=
  t.family = s.family ∧ t.port = s.port

/-- A pair is a valid candidate of the divider search (R103): `n` is the candidate for `hs`, is at most 128, keeps the
DCO at or below DCOMAX, and is not excluded for the grade. -/
def ValidPair (o : FindOperands) (hs n : Nat) : Prop :=
  Config.LegalHsDiv hs ∧ cand o.freq o.dcoMin hs = some n ∧ n ≤ 128 ∧
    o.freq.toNat * n * hs ≤ o.dcoMax.toNat * 2 ^ 21 ∧ Config.excl o.grade n hs = false

end Sys2Proof.Machine
end

