-- ==== Sys2Proof/Certificates/Slice0/Obligations.lean ====
section
/-! DEFINITION. The statements about the block, from the numbered rules of the spec. `s.opA`, `s.opFreq`, … are the
operands as a command reads them: the value held, or a free value where a register holds none. R35 leaves a command with
such an operand unspecified as a whole; that it runs, wherever a statement runs it in every state, is log 7. -/

open Sys2Proof Sys2Proof.Machine Sys2Proof.Config

/-! ### Command words -/

/-- R61, R63: decoding the word of a command gives the command, in every build that has it. -/
def Obligations.DecodeOfEncode : Prop :=
  ∀ (fam : Family) (i : Instr), i.WellFormed fam → decode fam (encode i) = some i

/-- R63, R64: a word that decodes to a command is that command's one word, and the build has the command. -/
def Obligations.EncodeOfDecode : Prop :=
  ∀ (fam : Family) (w : CommandWord) (i : Instr), decode fam w = some i → encode i = w ∧ i.WellFormed fam

/-- R63: the opcode map, row by row, the 64 words of DIVW, and the 67 legal words of a build. -/
def Obligations.DecoderFollowsTheOpcodeMap : Prop :=
  ∀ fam : Family,
    (∀ w : CommandWord,
      (decode fam w = some .mulw ↔ w &&& 0xFFFF = 0x0001) ∧
      ((∃ f, decode fam w = some (.divw f)) ↔ w &&& 0xFC0F = 0x0002) ∧
      (decode fam w = some .s570find ↔ w &&& 0xFFFF = 0x0004 ∧ fam = .si570) ∧
      (decode fam w = some .s570rfreq ↔ w &&& 0xFFFF = 0x0005 ∧ fam = .si570) ∧
      (decode fam w = some .s549div ↔ w &&& 0xFFFF = 0x0008 ∧ fam = .si549) ∧
      (decode fam w = some .s549fbdiv ↔ w &&& 0xFFFF = 0x0009 ∧ fam = .si549)) ∧
    (∀ f : BitVec 6, decode fam (0x0002 ||| (f.setWidth 16 <<< 4)) = some (.divw f)) ∧
    ∃ legal : List CommandWord, legal.Nodup ∧ legal.length = 67 ∧ ∀ w, w ∈ legal ↔ (decode fam w).isSome = true

/-- R65, R66: which words are illegal, and their whole effect; the next command of the build clears ILL. In the last
clause, where an operand register of the next command holds no value, that the command runs so is the model's choice
of log 7 (R35). -/
def Obligations.IllegalWordsWriteOnlyStatus : Prop :=
  ∀ s : State,
    (∀ w : CommandWord, decode s.family w = none ↔
      fieldZ w ≠ 0 ∨ (fieldF w ≠ 0 ∧ fieldOp w ≠ 0x2) ∨
      fieldOp w ∈ [0x0, 0x3, 0x6, 0x7, 0xA, 0xB, 0xC, 0xD, 0xE, 0xF] ∨
      (s.family = .si570 ∧ fieldOp w ∈ [0x8, 0x9]) ∨ (s.family = .si549 ∧ fieldOp w ∈ [0x4, 0x5])) ∧
    (∀ data : PortData, decode s.family (data.setWidth 16) = none →
      perform (.write 0x00 data) s = .next { s with status := 0x02 }) ∧
    decode s.family 0x0000 = none ∧ decode s.family 0xFFFF = none ∧
    (∀ i : Instr, i.WellFormed s.family → ∃ t, exec i { s with status := 0x02 } = .next t ∧ statusIll t.status = false)

/-- A command that the build lacks, given to `exec` all the same, has the effect of an illegal word (model's choice,
log 10; the decoder never gives such a command). -/
def Obligations.AbsentCommandsAreIllegal : Prop :=
  ∀ (i : Instr) (s : State), ¬ i.WellFormed s.family → exec i s = .next { s with status := 0x02 }

/-- R60, in part: data bits 47:16 of a write to CMD are ignored. -/
def Obligations.HighCommandDataIsIgnored : Prop :=
  ∀ (s : State) (data data' : PortData), data.setWidth 16 = data'.setWidth 16 →
    perform (.write 0x00 data) s = perform (.write 0x00 data') s

/-- Words written out from the encoding of R61 and R63 decode to the commands they stand for. -/
def Obligations.SampleWordsDecode : Prop :=
  decode .si570 0b0000000000000001#16 = some .mulw ∧ decode .si549 0b0000000000000001#16 = some .mulw ∧
  decode .si570 0b0000000111110010#16 = some (.divw 31) ∧ decode .si549 0b0000001000110010#16 = some (.divw 35) ∧
  decode .si570 0b0000001111110010#16 = some (.divw 63) ∧
  decode .si570 0b0000000000000100#16 = some .s570find ∧ decode .si570 0b0000000000000101#16 = some .s570rfreq ∧
  decode .si549 0b0000000000001000#16 = some .s549div ∧ decode .si549 0b0000000000001001#16 = some .s549fbdiv

/-! ### Steps -/

/-- R46: where the host's next event writes to CMD a word that decodes to a command, the step is that command, run in
the state that differs only in the host's side: the event is issued and the position advances by one. The host's list
and its position are the model's own fields (log 1, log 15). -/
def Obligations.StepRunsTheDecodedCommand : Prop :=
  ∀ (s : State) (data : PortData) (rest : List HostEvent) (i : Instr),
    s.port.pending = .write 0x00 data :: rest → decode s.family (data.setWidth 16) = some i →
    step s = exec i { s with port := { s.port with pending := rest, issued := s.port.issued + 1 } }

/-- The interface of log 1 and log 4: `withFetchWord` makes the very next step run the command of the word, whatever
the build was. The position is the model's counter (log 15). -/
def Obligations.FetchWordRunsNext : Prop :=
  ∀ (s : State) (i : Instr),
    ∃ fam, i.WellFormed fam ∧ (i.WellFormed s.family → fam = s.family) ∧
      step (s.withFetchWord 16 (encode i).toNat) =
        exec i { s with family := fam, port := { s.port with issued := s.port.issued + 1 } }

/-- R140, R168: every event is one completed step, taken from the front of the host's list; no step changes the build,
and only reads add to what was returned. Where an operand register of a command holds no value, that the command runs
so is the model's choice of log 7 (R35). The host's list, its position and the returned data are the model's own
fields (log 1, log 15, log 3). -/
def Obligations.EveryEventIsOneCompletedStep : Prop :=
  ∀ (s : State) (e : HostEvent) (rest : List HostEvent), s.port.pending = e :: rest →
    ∃ t, step s = .next t ∧ t.family = s.family ∧ t.port.pending = rest ∧ t.port.issued = s.port.issued + 1 ∧
      ((∃ n, e = .read n ∧ ∃ v, t.port.returned = s.port.returned ++ [v]) ∨
       ((∀ n, e ≠ .read n) ∧ t.port.returned = s.port.returned))

/-- R168: a run of a finite list of events takes one step an event, never stops early, and ends with the list. Where
an operand register of a command holds no value, that the command runs so is the model's choice of log 7 (R35). That
step idles after the last event (the last clause) is the model's choice of log 2, as R168 gives no step there; the
host's list and its position are the model's own fields (log 1, log 15). -/
def Obligations.FiniteRunsEnd : Prop :=
  ∀ s : State, ∃ t, core.run s.port.pending.length s = .next t ∧
    t.port.pending = [] ∧ t.port.issued = s.port.issued + s.port.pending.length ∧ step t = .next t

/-! ### Wide multiply and divide -/

/-- R80, R81: MULW writes the exact product, and changes nothing but P and STATUS. Where A or B holds no value R35 leaves
the command unspecified as a whole; that it completes there too, on free values, is the model's choice of log 7. -/
def Obligations.MulwWritesTheExactProduct : Prop :=
  (∀ s : State, ∃ t, exec .mulw s = .next t ∧
    t.wide.p.held = true ∧ t.wide.p.word.toNat = s.opA.toNat * s.opB.toNat ∧ t.status = 0x00 ∧
    t = { s with status := t.status, wide := { s.wide with p := t.wide.p } }) ∧
  ∀ fam, decode fam 0x0001 = some .mulw

/-- R83, with R82 and R85: DIVW changes nothing but Q and STATUS; Q is the floor quotient in the domain, and the
unspecified value of R85 outside it. Where X or D holds no value R35 leaves the command unspecified as a whole; that
it completes there too, on free values, is the model's choice of log 7. The unspecified value has the form of log 9.
-/
def Obligations.DivwWritesTheFloorQuotient : Prop :=
  (∀ (f : BitVec 6) (s : State), ∃ t, exec (.divw f) s = .next t ∧
    t.wide.q.held = true ∧ t.status = 0x00 ∧
    t = { s with status := t.status, wide := { s.wide with q := t.wide.q } } ∧
    (s.opD.toNat ≠ 0 ∧ s.opX.toNat * 2 ^ f.toNat < s.opD.toNat * 2 ^ 48 →
      t.wide.q.word.toNat * s.opD.toNat ≤ s.opX.toNat * 2 ^ f.toNat ∧
      s.opX.toNat * 2 ^ f.toNat < (t.wide.q.word.toNat + 1) * s.opD.toNat) ∧
    (¬ (s.opD.toNat ≠ 0 ∧ s.opX.toNat * 2 ^ f.toNat < s.opD.toNat * 2 ^ 48) →
      t.wide.q.word = divwOod s.opX s.opD f)) ∧
  (∀ (fam : Family) (f : BitVec 6), decode fam (0x0002 ||| (f.setWidth 16 <<< 4)) = some (.divw f)) ∧
  ∀ (x : BitVec 48) (d : BitVec 32) (f : BitVec 6), d ≠ 0 → x.toNat < 2 ^ (48 - f.toNat) → DivwDomain x d f

/-- R87: the two properties the source states as tests. -/
def Obligations.DivideInvertsMultiply : Prop :=
  (∀ a : BitVec 32, a ≠ 0 → divwTotal (mulw a 1) a 0 = 1) ∧
  ∀ (x : BitVec 48) (d : BitVec 32) (f : BitVec 6), d ≠ 0 → x.toNat * 2 ^ f.toNat / d.toNat < 2 ^ 48 →
    (divwTotal x d f).toNat = x.toNat * 2 ^ f.toNat / d.toNat

/-- 40_widearith.md section 4: the shift-and-add loop computes `mulw`. The reference algorithm stands in the model
beside the block, which does not use it (log 17). -/
def Obligations.ShiftAndAddComputesTheProduct : Prop :=
  ∀ (a : BitVec 32) (b : BitVec 16), mulwRef a b = mulw a b

/-- 40_widearith.md section 4: the restoring division computes `divw` in its domain, the low 48 bits of the quotient
for any other divisor but 0, and all ones for the divisor 0. The reference algorithm stands in the model beside the
block, which does not use it (log 17). -/
def Obligations.RestoringDivisionComputesTheQuotient : Prop :=
  ∀ (x : BitVec 48) (d : BitVec 32) (f : BitVec 6),
    (DivwDomain x d f → divwRef x d f = divwTotal x d f) ∧
    (d ≠ 0 → (divwRef x d f).toNat = x.toNat * 2 ^ f.toNat / d.toNat % 2 ^ 48) ∧
    (d = 0 → divwRef x d f = BitVec.allOnes 48)

/-! ### Si570 -/

/-- R6: the constraints that every exclusion table meets; all four lists are strictly nested, B and D in an order that
R6 does not state. That the inclusions are taken over the legal pairs, and that B and D, comparable and among four
strictly nested sets, are strictly ordered, is the reading of log 8 (DEDUCED). -/
def Obligations.ExclusionListsAreNested : Prop :=
  (∀ n1 hs, excl .a n1 hs = false) ∧
  (StrictlyWithin (excl .a) (excl .b) ∧ StrictlyWithin (excl .b) (excl .c)) ∧
  (StrictlyWithin (excl .a) (excl .d) ∧ StrictlyWithin (excl .d) (excl .c)) ∧
  (StrictlyWithin (excl .b) (excl .d) ∨ StrictlyWithin (excl .d) (excl .b)) ∧
  excl .c 1 4 = true

/-- R102: the candidate for an HS_DIV value is the least legal N1 whose DCO reaches DCOMIN; none for a target of 0, and 1
where DCOMIN is 0. -/
def Obligations.CandidateIsTheLeastLegalN1 : Prop :=
  ∀ (freq : BitVec 32) (dcoMin : BitVec 16) (hs : Nat), LegalHsDiv hs →
    (freq = 0 → cand freq dcoMin hs = none) ∧
    (freq ≠ 0 → ∃ n, cand freq dcoMin hs = some n ∧ 1 ≤ n ∧ (n = 1 ∨ n % 2 = 0) ∧
      dcoMin.toNat * 2 ^ 21 ≤ freq.toNat * n * hs ∧
      (∀ m, 1 ≤ m → (m = 1 ∨ m % 2 = 0) → dcoMin.toNat * 2 ^ 21 ≤ freq.toNat * m * hs → n ≤ m) ∧
      (dcoMin = 0 → n = 1))

/-- R103, R104: S570FIND fails with NODIV, changing STATUS alone, exactly where no pair is valid; else it stores the
valid pair of the smallest product, the larger HS_DIV on a tie, with its product. Where an operand holds no value R35
leaves the command unspecified as a whole; that it runs there too, on free values, is the model's choice of log 7. -/
def Obligations.FindStoresTheBestValidPair : Prop :=
  (∀ s : State, s.family = .si570 →
    ((∀ hs n, ¬ ValidPair s.findOperands hs n) → exec .s570find s = .next { s with status := 0x05 }) ∧
    ((∃ hs n, ValidPair s.findOperands hs n) → ∃ t hs n, exec .s570find s = .next t ∧
      ValidPair s.findOperands hs n ∧
      (∀ hs' n', ValidPair s.findOperands hs' n' → n * hs < n' * hs' ∨ (n * hs = n' * hs' ∧ hs' ≤ hs)) ∧
      (t.s570.hsDiv.held = true ∧ t.s570.hsDiv.word.toNat = hs) ∧
      (t.s570.n1.held = true ∧ t.s570.n1.word.toNat = n) ∧
      (t.s570.n.held = true ∧ t.s570.n.word.toNat = n * hs) ∧
      t.status = 0x00 ∧
      t = { s with status := t.status,
                   s570 := { s.s570 with hsDiv := t.s570.hsDiv, n1 := t.s570.n1, n := t.s570.n } })) ∧
  decode .si570 0x0004 = some .s570find

/-- R104, corner cases: four conditions on the operands under which the search always fails. Where an operand register
of a command holds no value, that the command runs so is the model's choice of log 7 (R35). -/
def Obligations.FindFailsOutOfReach : Prop :=
  ∀ s : State, s.family = .si570 →
    (s.opFreq = 0 ∨ s.opDcoMax.toNat < s.opDcoMin.toNat ∨
      s.opFreq.toNat * 1408 < s.opDcoMin.toNat * 2 ^ 21 ∨ s.opDcoMax.toNat * 2 ^ 21 < s.opFreq.toNat * 4) →
    exec .s570find s = .next { s with status := 0x05 }

/-- R104, corner cases: with DCOMIN = 0 every candidate is 1 and the choice is (1, 4), if that pair is valid. Where an
operand register of a command holds no value, that the command runs so is the model's choice of log 7 (R35). -/
def Obligations.FindWithoutLowerLimitChoosesOneFour : Prop :=
  ∀ s : State, s.family = .si570 → s.opDcoMin = 0 → s.opFreq ≠ 0 →
    s.opFreq.toNat * 4 ≤ s.opDcoMax.toNat * 2 ^ 21 → excl s.opGrade 1 4 = false →
    ∃ t, exec .s570find s = .next t ∧ t.status = 0x00 ∧
      t.s570.hsDiv.word = 4 ∧ t.s570.n1.word = 1 ∧ t.s570.n.word = 4

/-- R6 (c), R103: S570FIND never stores the pair (1, 4) for grade C. Where an operand register of a command holds no
value, that the command runs so is the model's choice of log 7 (R35). -/
def Obligations.GradeCNeverGetsOneFour : Prop :=
  ∀ s : State, s.family = .si570 → s.opGrade = .c →
    ∃ t, exec .s570find s = .next t ∧ (t.status = 0x00 → ¬ (t.s570.n1.word = 1 ∧ t.s570.hsDiv.word = 4))

/-- R107, with R103 and R104: for grade A the search succeeds wherever a candidate of at most 128 keeps the DCO at or
below DCOMAX; nothing is excluded. Where FREQ, DCOMIN, DCOMAX or GRADE holds no value, that the command runs so is the
model's choice of log 7 (R35). -/
def Obligations.GradeATakesNoExclusionTest : Prop :=
  (∀ n1 hs, excl .a n1 hs = false) ∧
  ∀ (s : State) (hs n : Nat), s.family = .si570 → s.opGrade = .a → LegalHsDiv hs →
    cand s.opFreq s.opDcoMin hs = some n → n ≤ 128 → s.opFreq.toNat * n * hs ≤ s.opDcoMax.toNat * 2 ^ 21 →
    ∃ t, exec .s570find s = .next t ∧ t.status = 0x00

/-- R104: the outcome of S570FIND is a function of its four operands (and the table) alone. Where an operand register
of a command holds no value, that the command runs so is the model's choice of log 7 (R35). -/
def Obligations.FindReadsOnlyItsOperands : Prop :=
  ∀ s u : State, s.family = .si570 → u.family = .si570 → s.opFreq = u.opFreq → s.opDcoMin = u.opDcoMin →
    s.opDcoMax = u.opDcoMax → s.opGrade = u.opGrade →
    ∃ t v, exec .s570find s = .next t ∧ exec .s570find u = .next v ∧ t.status = v.status ∧
      (t.status = 0x00 → t.s570.hsDiv = v.s570.hsDiv ∧ t.s570.n1 = v.s570.n1 ∧ t.s570.n = v.s570.n)

/-- R105: S570RFREQ fails with DCOHI, changing STATUS alone, exactly where FREQ × S570_N exceeds DCOMAX; else it
stores the low 38 bits of the quotient, the unspecified one outside the domain of the divide. Where an operand holds
no value R35 leaves the command unspecified as a whole; that it runs there too, on free values, is the model's choice
of log 7. The unspecified value has the form of log 9. -/
def Obligations.RfreqStoresTheRatioOrFails : Prop :=
  (∀ s : State, s.family = .si570 →
    (s.opFreq.toNat * s.opS570N.toNat > s.opDcoMax.toNat * 2 ^ 21 →
      exec .s570rfreq s = .next { s with status := 0x09 }) ∧
    (s.opFreq.toNat * s.opS570N.toNat ≤ s.opDcoMax.toNat * 2 ^ 21 → ∃ t, exec .s570rfreq s = .next t ∧
      t.s570.rfreq.held = true ∧ t.status = 0x00 ∧
      t = { s with status := t.status, s570 := { s.s570 with rfreq := t.s570.rfreq } } ∧
      (s.opXtal ≠ 0 ∧ s.opFreq.toNat * s.opS570N.toNat * 2 ^ 31 < s.opXtal.toNat * 2 ^ 48 →
        t.s570.rfreq.word.toNat = s.opFreq.toNat * s.opS570N.toNat * 2 ^ 31 / s.opXtal.toNat % 2 ^ 38) ∧
      (¬ (s.opXtal ≠ 0 ∧ s.opFreq.toNat * s.opS570N.toNat * 2 ^ 31 < s.opXtal.toNat * 2 ^ 48) →
        t.s570.rfreq.word = (divwOod (mulw s.opFreq s.opS570N) s.opXtal 31#6).setWidth 38))) ∧
  decode .si570 0x0005 = some .s570rfreq

/-- R105, corner case: past the DCO test, a crystal above 1/16 MHz keeps the divide in its domain. -/
def Obligations.CrystalAboveASixteenthIsInDomain : Prop :=
  ∀ s : State, s.opFreq.toNat * s.opS570N.toNat ≤ s.opDcoMax.toNat * 2 ^ 21 → 2 ^ 20 < s.opXtal.toNat →
    InDomain .s570rfreq s

/-- R106: after a successful S570FIND the DCO lies within its limits, and as long as FREQ, DCOMAX and the cached
product stay as they were S570RFREQ does not fail. Where an operand register of the command holds no value, that the
command runs so is the model's choice of log 7 (R35). -/
def Obligations.FreshSolutionNeverExceedsDcoMax : Prop :=
  ∀ s t : State, s.family = .si570 → exec .s570find s = .next t → t.status = 0x00 →
    (s.opDcoMin.toNat * 2 ^ 21 ≤ s.opFreq.toNat * t.s570.n.word.toNat ∧
      4 ≤ t.s570.n.word.toNat ∧ t.s570.n.word.toNat ≤ 1408) ∧
    ∀ u : State, u.family = .si570 → u.opFreq = s.opFreq → u.opDcoMax = s.opDcoMax → u.s570.n = t.s570.n →
      ∃ v, exec .s570rfreq u = .next v ∧ v.status = 0x00

/-! ### Si549 -/

/-- R120 to R123: S549DIV changes nothing but its two results and STATUS. In the domain `d` is the total divider, the
least number that takes the truncated target up to DCOMIN, and `ls` is LSDIV. Where FREQ or DCOMIN holds no value R35
leaves the command unspecified as a whole; that it completes there too, on free values, is the model's choice of log
7. The unspecified value has the form of log 9. -/
def Obligations.S549DivSplitsTheTotalDivider : Prop :=
  (∀ s : State, s.family = .si549 → ∃ t, exec .s549div s = .next t ∧
    t.s549.hsDiv.held = true ∧ t.s549.lsDiv.held = true ∧ t.status = 0x00 ∧
    t = { s with status := t.status, s549 := { s.s549 with hsDiv := t.s549.hsDiv, lsDiv := t.s549.lsDiv } } ∧
    (s.opFreq.toNat < 0x00040000 → (t.s549.hsDiv.word, t.s549.lsDiv.word) = s549DivOod s.opFreq s.opDcoMin) ∧
    (0x00040000 ≤ s.opFreq.toNat → ∃ d ls : Nat,
      (s.opDcoMin.toNat * 8 ≤ d * (s.opFreq.toNat / 2 ^ 18) ∧
        ∀ k, s.opDcoMin.toNat * 8 ≤ k * (s.opFreq.toNat / 2 ^ 18) → d ≤ k) ∧
      d ≤ 524280 ∧
      ((d < 2046 ∧ ls = 0) ∨
        (2046 * 2 ^ ls ≤ d ∧ ls ≤ 5 ∧ ∀ k, 2046 * 2 ^ k ≤ d → k ≤ 5 → k ≤ ls)) ∧
      t.s549.lsDiv.word.toNat = ls ∧
      t.s549.hsDiv.word.toNat =
        d / 2 ^ ls + (if ls = 0 ∧ 34 ≤ d ∧ d % 2 = 1 then 1 else 0))) ∧
  decode .si549 0x0008 = some .s549div

/-- R124: the ranges of the two dividers after an in-domain S549DIV. Where FREQ or DCOMIN holds no value, that the
command runs so is the model's choice of log 7 (R35). -/
def Obligations.S549DividerRanges : Prop :=
  ∀ s : State, s.family = .si549 → 0x00040000 ≤ s.opFreq.toNat → ∃ t, exec .s549div s = .next t ∧
    t.s549.lsDiv.word.toNat ≤ 5 ∧ t.s549.hsDiv.word.toNat ≤ 16383 ∧
    (t.s549.lsDiv.word.toNat = 0 → t.s549.hsDiv.word.toNat ≤ 4092) ∧
    (1 ≤ t.s549.lsDiv.word.toNat → t.s549.lsDiv.word.toNat ≤ 4 →
      2046 ≤ t.s549.hsDiv.word.toNat ∧ t.s549.hsDiv.word.toNat ≤ 4091) ∧
    (t.s549.lsDiv.word.toNat = 5 → 2046 ≤ t.s549.hsDiv.word.toNat ∧ t.s549.hsDiv.word.toNat ≤ 16383) ∧
    (2046 < totalDivider s.opFreq s.opDcoMin → 2046 ≤ t.s549.hsDiv.word.toNat)

/-- R125, R126: S549FBDIV stores the low 43 bits of the quotient, the unspecified one outside the domain, and changes
nothing but its result and STATUS. Where an operand holds no value R35 leaves the command unspecified as a whole; that
it completes there too, on free values, is the model's choice of log 7. The unspecified value has the form of log 9.
-/
def Obligations.FbdivStoresTheRatio : Prop :=
  (∀ s : State, s.family = .si549 → ∃ t, exec .s549fbdiv s = .next t ∧
    t.s549.fbDiv.held = true ∧ t.status = 0x00 ∧
    t = { s with status := t.status, s549 := { s.s549 with fbDiv := t.s549.fbDiv } } ∧
    (2 ^ 16 ≤ s.opHsDiv.toNat * 2 ^ s.opLsDiv.toNat →
      t.s549.fbDiv.word = fbdivOod s.opFreq s.opXtal s.opHsDiv s.opLsDiv) ∧
    (s.opHsDiv.toNat * 2 ^ s.opLsDiv.toNat < 2 ^ 16 → ∃ v : BitVec 48,
      v.toNat = s.opFreq.toNat * (s.opHsDiv.toNat * 2 ^ s.opLsDiv.toNat) ∧
      (s.opXtal ≠ 0 ∧ v.toNat * 2 ^ 35 < s.opXtal.toNat * 2 ^ 48 →
        t.s549.fbDiv.word.toNat = v.toNat * 2 ^ 35 / s.opXtal.toNat % 2 ^ 43) ∧
      (¬ (s.opXtal ≠ 0 ∧ v.toNat * 2 ^ 35 < s.opXtal.toNat * 2 ^ 48) →
        t.s549.fbDiv.word = (divwOod v s.opXtal 35#6).setWidth 43))) ∧
  decode .si549 0x0009 = some .s549fbdiv

/-- R126: after an in-domain S549DIV the divider product is wider than 16 bits exactly where LSDIV is 5 and HSDIV at
least 2048, which is a total divider of at least 65536; S549FBDIV then stores the unspecified value, with STATUS 0x00.
Where FREQ, DCOMIN or XTAL holds no value, that the command runs so is the model's choice of log 7 (R35). The
unspecified value has the form of log 9. -/
def Obligations.WideDividerProductIsUnspecified : Prop :=
  ∀ s : State, s.family = .si549 → 0x00040000 ≤ s.opFreq.toNat → ∃ t, exec .s549div s = .next t ∧
    (2 ^ 16 ≤ t.s549.hsDiv.word.toNat * 2 ^ t.s549.lsDiv.word.toNat ↔
      t.s549.lsDiv.word.toNat = 5 ∧ 2048 ≤ t.s549.hsDiv.word.toNat) ∧
    (2 ^ 16 ≤ t.s549.hsDiv.word.toNat * 2 ^ t.s549.lsDiv.word.toNat ↔ 65536 ≤ totalDivider s.opFreq s.opDcoMin) ∧
    (2 ^ 16 ≤ t.s549.hsDiv.word.toNat * 2 ^ t.s549.lsDiv.word.toNat →
      ∃ u, exec .s549fbdiv t = .next u ∧ u.status = 0x00 ∧
        u.s549.fbDiv.word = fbdivOod t.opFreq t.opXtal t.opHsDiv t.opLsDiv)

/-! ### STATUS and abnormal outcomes -/

/-- R141: STATUS after a write to CMD, and exactly when each abnormal outcome is met. Where an operand register of the
command holds no value, that the command runs so is the model's choice of log 7 (R35). -/
def Obligations.AbnormalOutcomesExactly : Prop :=
  ∀ (w : CommandWord) (s : State), ∃ t, runCommandWord w s = .next t ∧
    (t.status = 0x05 ↔ decode s.family w = some .s570find ∧ ∀ hs n, ¬ ValidPair s.findOperands hs n) ∧
    (t.status = 0x09 ↔ decode s.family w = some .s570rfreq ∧
      s.opFreq.toNat * s.opS570N.toNat > s.opDcoMax.toNat * 2 ^ 21) ∧
    (t.status = 0x02 ↔ decode s.family w = none) ∧
    (t.status = 0x00 ∨ t.status = 0x02 ∨ t.status = 0x05 ∨ t.status = 0x09) ∧
    (t.status = 0x05 ∨ t.status = 0x09 → t = { s with status := t.status })

/-- R142: an illegal command is not a failure and has no cause. -/
def Obligations.IllegalIsNotAFailure : Prop :=
  ∀ (data : PortData) (s : State), decode s.family (data.setWidth 16) = none →
    ∃ t, perform (.write 0x00 data) s = .next t ∧ t = { s with status := 0x02 } ∧
      statusFail t.status = false ∧ statusIll t.status = true ∧ statusCause t.status = 0

/-- R145: after a write to CMD that fails or is illegal, every register other than STATUS holds exactly what it held.
Where an operand register of the command holds no value, that the command runs so is the model's choice of log 7
(R35). The host's side, which no command touches, is the model's own (log 1, log 3, log 15). -/
def Obligations.FailuresArePrecise : Prop :=
  ∀ (w : CommandWord) (s : State), ∃ t, runCommandWord w s = .next t ∧
    (t.status ≠ 0x00 → SameRegisters s t ∧ SameOutside s t)

/-- R146, R166: the outcome of a write to CMD does not depend on what STATUS held before. Where an operand register of
the command holds no value, that the command runs so is the model's choice of log 7 (R35). -/
def Obligations.EarlierStatusIsOverwritten : Prop :=
  ∀ (w : CommandWord) (s : State) (v : BitVec 8), runCommandWord w { s with status := v } = runCommandWord w s

/-- R36: the complete write set of each command. Where an operand register of the command holds no value, that the
command runs so is the model's choice of log 7 (R35). The host's side, which no command touches, is the model's own
(log 1, log 3, log 15). -/
def Obligations.CommandsWriteOnlyTheirResults : Prop :=
  (∀ (i : Instr) (s : State), i.WellFormed s.family → ∃ t, exec i s = .next t ∧ SameOutside s t ∧
    (∀ r : Reg, r ≠ .status → r ∉ resultsOf i → SameRegister s t r) ∧
    (t.status = 0x00 → ∀ r ∈ resultsOf i, t.holds r = true) ∧
    (t.status ≠ 0x00 → SameRegisters s t)) ∧
  (∀ i r, r ∈ resultsOf i → r.access = .ro) ∧
  ∀ (w : CommandWord) (s : State), decode s.family w = none →
    runCommandWord w s = .next { s with status := 0x02 }

/-! ### The host port -/

/-- R41: the register map. -/
def Obligations.RegisterMap : Prop :=
  (∀ fam, [0x00, 0x01, 0x02, 0x03, 0x04, 0x05, 0x06, 0x07, 0x08, 0x09, 0x0A, 0x0B, 0x0C].map (regAt fam) =
    [some .cmd, some .status, some .a, some .b, some .x, some .d, some .p, some .q, some .freq, some .xtal,
     some .dcoMin, some .dcoMax, some .grade]) ∧
  [0x10, 0x11, 0x12, 0x13].map (regAt .si570) = [some .s570HsDiv, some .s570N1, some .s570N, some .s570Rfreq] ∧
  [0x18, 0x19, 0x1A].map (regAt .si549) = [some .s549HsDiv, some .s549LsDiv, some .s549FbDiv] ∧
  (∀ fam, ∀ n ∈ [0x0D, 0x0E, 0x0F, 0x14, 0x15, 0x16, 0x17, 0x1B, 0x1C, 0x1D, 0x1E, 0x1F], regAt fam n = none) ∧
  (∀ n ∈ [0x10, 0x11, 0x12, 0x13], regAt .si549 n = none) ∧ (∀ n ∈ [0x18, 0x19, 0x1A], regAt .si570 n = none)

/-- R43: a host write. The host's side, which no write touches, is the model's own (log 1, log 3, log 15). -/
def Obligations.HostWrites : Prop :=
  ∀ (n : RegNumber) (data : PortData) (s : State),
    (∀ r, regAt s.family n = some r → r.access = .rw → ∃ t, perform (.write n data) s = .next t ∧
      t.holds r = true ∧ t.stored r = data.toNat % 2 ^ r.width ∧
      (∀ r', r' ≠ r → SameRegister s t r') ∧ SameOutside s t) ∧
    (n = 0x00 → perform (.write n data) s = runCommandWord (data.setWidth 16) s) ∧
    (∀ r, regAt s.family n = some r → r.access = .ro → perform (.write n data) s = .next s) ∧
    (regAt s.family n = none → perform (.write n data) s = .next s)

/-- R44: a host read. It returns the value held, or 0 for CMD and unmapped numbers; what it returns for a register
that holds no value is bounded only by the register's width. It changes nothing of the block. That the datum is
appended to a list in State is the model's choice of log 3; the width bound where the register holds no value is R35
with log 6. -/
def Obligations.HostReads : Prop :=
  ∀ (n : RegNumber) (s : State), ∃ (t : State) (v : PortData), perform (.read n) s = .next t ∧
    t = { s with port := { s.port with returned := s.port.returned ++ [v] } } ∧
    (∀ r, regAt s.family n = some r → s.holds r = true → v.toNat = s.stored r) ∧
    (∀ r, regAt s.family n = some r → v.toNat < 2 ^ r.width) ∧
    (n = 0x00 ∨ regAt s.family n = none → v = 0)

/-- What a host read of a register without a value returns, and what a command takes from each of its twelve operand
registers: the value held, and a free value where none is held (R35; that commands run on free values is the model's
choice, log 6 and log 7). The operand registers are those of R13 to R16, R19 to R23, R26, R28 and R29; GRADE's operand
is the grade that its code names (R23). The position is the model's counter (log 15). -/
def Obligations.RegistersWithoutAValueShowFreeValues : Prop :=
  (∀ (n : RegNumber) (r : Reg) (s : State), regAt s.family n = some r → s.holds r = false →
    s.portData n = (unwrittenValue r.width r.number s.port.issued).setWidth 48) ∧
  (∀ s : State,
    TakenFrom s.opA s.wide.a .a s.port.issued ∧
    TakenFrom s.opB s.wide.b .b s.port.issued ∧
    TakenFrom s.opX s.wide.x .x s.port.issued ∧
    TakenFrom s.opD s.wide.d .d s.port.issued ∧
    TakenFrom s.opFreq s.setup.freq .freq s.port.issued ∧
    TakenFrom s.opXtal s.setup.xtal .xtal s.port.issued ∧
    TakenFrom s.opDcoMin s.setup.dcoMin .dcoMin s.port.issued ∧
    TakenFrom s.opDcoMax s.setup.dcoMax .dcoMax s.port.issued ∧
    (∃ code, TakenFrom code s.setup.grade .grade s.port.issued ∧ s.opGrade = gradeOfCode code) ∧
    TakenFrom s.opS570N s.s570.n .s570N s.port.issued ∧
    TakenFrom s.opHsDiv s.s549.hsDiv .s549HsDiv s.port.issued ∧
    TakenFrom s.opLsDiv s.s549.lsDiv .s549LsDiv s.port.issued) ∧
  (∀ {w : Nat} (reg : Register w) (name : Reg) (k : Nat), TakenFrom (reg.shown name k) reg name k) ∧
  [0, 1, 2, 3].map gradeOfCode = [.a, .b, .c, .d]

/-- R47, with R43, R44 and R167: a read returns the latest earlier write, the host's or a command's. `t` is the state
after that write, `mid` the events between it and the read, none of which writes `r` or is a reset (with `mid` empty
the read is the very next event, R167), and `u` the state after `mid`. STATUS always holds a value, CMD reads as 0.
Where an operand register of a command holds no value, that the command runs so is the model's choice of log 7 (R35).
The list of events still to come and the list of returned data are the model's own fields (log 1, log 3). -/
def Obligations.ReadReturnsTheLatestWrite : Prop :=
  ∀ (s t : State) (n : RegNumber) (r : Reg) (mid rest : List HostEvent),
    regAt s.family n = some r → step s = .next t → t.port.pending = mid ++ .read n :: rest →
    (∀ k x, k < mid.length → core.run k t = .next x → nextEventWrites x r = false) →
    ∃ (u v : State) (data : PortData), core.run mid.length t = .next u ∧ step u = .next v ∧
      v.port.pending = rest ∧ v.port.returned = u.port.returned ++ [data] ∧
      (t.holds r = true → data.toNat = t.stored r) ∧
      (∀ value tail, s.port.pending = .write n value :: tail → r.access = .rw →
        data.toNat = value.toNat % 2 ^ r.width) ∧
      (∀ word tail i, s.port.pending = .write 0x00 word :: tail → decode s.family (word.setWidth 16) = some i →
        r ∈ resultsOf i → t.status = 0x00 →
        exec i (s.issue tail) = .next t ∧ t.holds r = true ∧ data.toNat = t.stored r)

/-- R162, R35: a command whose boot requirement is met does not depend on any free value of an unwritten register: its
outcome is the same at every position of the host's program. That these values are drawn by position is the form of
log 6. The position is the model's counter (log 15). -/
def Obligations.BootedCommandsReadNoFreeValue : Prop :=
  ∀ (i : Instr) (s : State) (k : Nat), OperandsHeld i s →
    ∃ t, exec i s = .next t ∧
      exec i { s with port := { s.port with issued := k } } = .next { t with port := { t.port with issued := k } }

/-- R68: the assembler's lines. That RD rejects the names that do not exist, as R68 says of WR, that WR takes the
names of read-only registers, and that a command line of the other family is not rejected, is the reading of log 12
(DEDUCED). -/
def Obligations.AssemblerLines : Prop :=
  (∀ fam, assemble fam .mulw = some (.write 0x00 0x0001) ∧ assemble fam .s570find = some (.write 0x00 0x0004) ∧
    assemble fam .s570rfreq = some (.write 0x00 0x0005) ∧ assemble fam .s549div = some (.write 0x00 0x0008) ∧
    assemble fam .s549fbdiv = some (.write 0x00 0x0009)) ∧
  (∀ fam f, (f ≤ 63 → ∃ data, assemble fam (.divw f) = some (.write 0x00 data) ∧ data.toNat = 2 + 16 * f ∧
      decode fam (data.setWidth 16) = some (.divw (BitVec.ofNat 6 f))) ∧
    (63 < f → assemble fam (.divw f) = none)) ∧
  ∀ fam r, (r.presentIn fam = false → assemble fam (.rd r) = none ∧ ∀ value, assemble fam (.wr r value) = none) ∧
    (r.presentIn fam = true → assemble fam (.rd r) = some (.read r.number) ∧ regAt fam r.number = some r ∧
      ∀ value, (value < 2 ^ 48 → ∃ data, assemble fam (.wr r value) = some (.write r.number data) ∧ data.toNat = value) ∧
        (2 ^ 48 ≤ value → assemble fam (.wr r value) = none))

/-! ### Reset and invariants -/

/-- R160: the whole effect of a reset, and the state after it. That a reset is an event of the host's list is log 11;
that it leaves the host's side, the position among it, as it was is log 11 and the model's choice of log 15. -/
def Obligations.ResetClearsEveryRegister : Prop :=
  (∀ s : State, ∃ t, perform .reset s = .next t ∧ t.status = 0x00 ∧
    (∀ r : Reg, r ≠ .cmd → r ≠ .status → t.holds r = false) ∧ SameOutside s t) ∧
  ∀ fam, (State.resetFor fam).family = fam ∧ (State.resetFor fam).status = 0x00 ∧
    ∀ r : Reg, r ≠ .cmd → r ≠ .status → (State.resetFor fam).holds r = false

/-- The state after reset meets the invariants, in both builds; `State.reset` is the one of an SI570 build (log 4; the
stored form is that of log 5). -/
def Obligations.ResetMeetsTheInvariants : Prop :=
  (∀ fam, BlockInv (State.resetFor fam) ∧ StorageCanonical (State.resetFor fam)) ∧
  State.reset = State.resetFor .si570

/-- R31 (and the values of STATUS that R12 lists): every step keeps the cached solution absent as a whole or a legal
pair with its product. Where an operand register of the command holds no value, that the command runs so is the
model's choice of log 7 (R35). -/
def Obligations.StepKeepsTheBlockInvariant : Prop :=
  ∀ s t : State, BlockInv s → step s = .next t → BlockInv t

/-- Every step keeps the stored form: the absent family's registers hold no value, and a register that holds no value
is stored in one form (model's choice, log 4 and log 5). Where an operand register of a command holds no value, that
the command runs so is the model's choice of log 7 (R35). -/
def Obligations.StepKeepsStorageCanonical : Prop :=
  ∀ s t : State, StorageCanonical s → step s = .next t → StorageCanonical t

/-- R161: only a reset takes a value away, only a reset and a write to CMD change STATUS, and a cached solution
changes only by a reset or a successful S570FIND. Where an operand register of the command holds no value, that the
command runs so is the model's choice of log 7 (R35). The host's list and the reset event on it are the model's own
(log 1, log 11). -/
def Obligations.OnlyResetTakesValuesAway : Prop :=
  ∀ s t : State, step s = .next t →
    (∀ r : Reg, s.holds r = true → t.holds r = false → ∃ rest, s.port.pending = .reset :: rest) ∧
    (t.status ≠ s.status → ∃ rest, s.port.pending = .reset :: rest ∨
      ∃ data, s.port.pending = .write 0x00 data :: rest) ∧
    (¬ (t.s570.hsDiv = s.s570.hsDiv ∧ t.s570.n1 = s.s570.n1 ∧ t.s570.n = s.s570.n) →
      ∃ rest, s.port.pending = .reset :: rest ∨
        ∃ data, s.port.pending = .write 0x00 data :: rest ∧
          decode s.family (data.setWidth 16) = some .s570find ∧ t.status = 0x00)
end

