-- ==== Sys2Proof/Laws/Arith.lean ====
section
/-! SUPPORT. The shared arithmetic on exact integers: the product fits, the quotient obeys the division law, the
ceiling is a ceiling, and the search keeps the best candidate met so far. -/

namespace Sys2Proof.Machine

/-- A 32-bit number times a 16-bit number fits 48 bits (R80). -/
theorem product_lt (a : BitVec 32) (b : BitVec 16) : a.toNat * b.toNat < 2 ^ 48 := by
  have ha := a.isLt
  have hb := b.isLt
  calc a.toNat * b.toNat ≤ a.toNat * 2 ^ 16 := Nat.mul_le_mul_left _ (by omega)
    _ < 2 ^ 32 * 2 ^ 16 := (Nat.mul_lt_mul_right (by decide)).2 ha
    _ = 2 ^ 48 := by decide

theorem mulw_toNat (a : BitVec 32) (b : BitVec 16) : (mulw a b).toNat = a.toNat * b.toNat := by
  rw [mulw, BitVec.toNat_ofNat, Nat.mod_eq_of_lt (product_lt a b)]

/-- What the total divide can do: the floor quotient in the domain, the unspecified value outside it (R85). -/
theorem divwTotal_cases (x : BitVec 48) (d : BitVec 32) (f : BitVec 6) :
    (DivwDomain x d f ∧ (divwTotal x d f).toNat = wideQuotient x d f) ∨
    (¬ DivwDomain x d f ∧ divwTotal x d f = Config.divwOod x d f) := by
  by_cases h : DivwDomain x d f
  · exact .inl ⟨h, by rw [divwTotal, if_pos h, BitVec.toNat_ofNat, Nat.mod_eq_of_lt h.2]⟩
  · exact .inr ⟨h, by rw [divwTotal, if_neg h]⟩

/-- The ceiling law: `ceilDiv n d` is the least `k` with `n ≤ k · d`. -/
theorem ceilDiv_le_iff (n d k : Nat) (hd : 0 < d) : ceilDiv n d ≤ k ↔ n ≤ k * d := by
  have hmod := Nat.mod_lt n hd
  have hdiv := Nat.div_add_mod n d
  unfold ceilDiv
  generalize hq : n / d = q at *
  generalize hr : n % d = r at *
  split
  · rename_i h0
    subst h0
    rw [Nat.add_zero] at *
    rw [← hdiv, Nat.mul_comm d q]
    exact (Nat.mul_le_mul_right_iff hd).symm
  · rename_i h0
    constructor
    · intro h
      have : (q + 1) * d ≤ k * d := Nat.mul_le_mul_right d h
      rw [Nat.add_mul, Nat.one_mul, Nat.mul_comm q d] at this
      omega
    · intro h
      by_contra hc
      have : k * d ≤ q * d := Nat.mul_le_mul_right d (by omega)
      rw [Nat.mul_comm q d] at this
      omega

/-- Rounding to a legal N1 gives the least number that is 1 or even, from `n` on. -/
theorem roundN1_spec (n : Nat) (hn : 1 ≤ n) :
    n ≤ roundN1 n ∧ (roundN1 n = 1 ∨ roundN1 n % 2 = 0) ∧
      ∀ m, n ≤ m → (m = 1 ∨ m % 2 = 0) → roundN1 n ≤ m := by
  unfold roundN1
  split
  · refine ⟨by omega, by omega, ?_⟩
    intro m hm hl
    omega
  · refine ⟨by omega, by omega, ?_⟩
    intro m hm _
    omega

/-- What makes a candidate valid (R103). -/
theorem candidateOk_iff (o : FindOperands) (hs n : Nat) :
    candidateOk o hs n = true ↔
      n ≤ 128 ∧ o.freq.toNat * n * hs ≤ mhz o.dcoMax ∧ Config.excl o.grade n hs = false := by
  simp [candidateOk, and_assoc]

/-- The valid candidate for an HS_DIV value is its one candidate, with that HS_DIV value (R102, R103). -/
theorem validCand_eq_some (o : FindOperands) (hs : Nat) (sol : Solution) :
    validCand o hs = some sol ↔
      sol.hsDiv = hs ∧ cand o.freq o.dcoMin hs = some sol.n1 ∧ candidateOk o hs sol.n1 = true := by
  unfold validCand
  cases cand o.freq o.dcoMin hs with
  | none => simp
  | some n =>
    by_cases hk : candidateOk o hs n = true
    · simp only [hk, if_true, Option.some.injEq]
      constructor
      · rintro rfl; exact ⟨rfl, rfl, hk⟩
      · rintro ⟨rfl, rfl, _⟩; rfl
    · simp only [hk, Option.some.injEq]
      constructor
      · intro h; cases h
      · rintro ⟨_, rfl, h⟩; exact absurd h hk

/-- What one turn of the search can do (R104): keep the best, or take the candidate of this HS_DIV value. -/
theorem keepBetter_cases (o : FindOperands) (best : Option Solution) (hs : Nat) :
    keepBetter o best hs = best ∨ keepBetter o best hs = validCand o hs := by
  unfold keepBetter
  split
  · exact .inl rfl
  · rename_i h; exact .inr h.symm
  · rename_i h
    split
    · exact .inr h.symm
    · exact .inl rfl

end Sys2Proof.Machine
end

