-- ==== Sys2Proof/Laws/State.lean ====
section
/-! SUPPORT. The small lemmas of the state: what each named update does to each field, and what a read of a register
gives. -/

namespace Sys2Proof.Machine

variable (s : State)

@[simp] theorem holding_held {w : Nat} (v : BitVec w) : (Register.holding v).held = true := rfl
@[simp] theorem holding_word {w : Nat} (v : BitVec w) : (Register.holding v).word = v := rfl
@[simp] theorem noValue_held {w : Nat} : (Register.noValue : Register w).held = false := rfl
@[simp] theorem noValue_word {w : Nat} : (Register.noValue : Register w).word = 0 := rfl

/-- The four words of STATUS (R12). -/
@[simp] theorem statusDone_eq : statusDone = 0x00#8 := by decide
@[simp] theorem statusIllegal_eq : statusIllegal = 0x02#8 := by decide
@[simp] theorem statusFailed_noDiv : statusFailed .noDiv = 0x05#8 := by decide
@[simp] theorem statusFailed_dcoHi : statusFailed .dcoHi = 0x09#8 := by decide

@[simp] theorem setStatus_family (v : BitVec 8) : (s.setStatus v).family = s.family := rfl
@[simp] theorem setStatus_status (v : BitVec 8) : (s.setStatus v).status = v := rfl
@[simp] theorem setStatus_wide (v : BitVec 8) : (s.setStatus v).wide = s.wide := rfl
@[simp] theorem setStatus_setup (v : BitVec 8) : (s.setStatus v).setup = s.setup := rfl
@[simp] theorem setStatus_s570 (v : BitVec 8) : (s.setStatus v).s570 = s.s570 := rfl
@[simp] theorem setStatus_s549 (v : BitVec 8) : (s.setStatus v).s549 = s.s549 := rfl
@[simp] theorem setStatus_port (v : BitVec 8) : (s.setStatus v).port = s.port := rfl

@[simp] theorem complete_family : (s.complete).family = s.family := rfl
@[simp] theorem complete_status : (s.complete).status = statusDone := rfl
@[simp] theorem complete_wide : (s.complete).wide = s.wide := rfl
@[simp] theorem complete_setup : (s.complete).setup = s.setup := rfl
@[simp] theorem complete_s570 : (s.complete).s570 = s.s570 := rfl
@[simp] theorem complete_s549 : (s.complete).s549 = s.s549 := rfl
@[simp] theorem complete_port : (s.complete).port = s.port := rfl

@[simp] theorem raiseFail_family (c : Cause) : (s.raiseFail c).family = s.family := rfl
@[simp] theorem raiseFail_status (c : Cause) : (s.raiseFail c).status = statusFailed c := rfl
@[simp] theorem raiseFail_wide (c : Cause) : (s.raiseFail c).wide = s.wide := rfl
@[simp] theorem raiseFail_setup (c : Cause) : (s.raiseFail c).setup = s.setup := rfl
@[simp] theorem raiseFail_s570 (c : Cause) : (s.raiseFail c).s570 = s.s570 := rfl
@[simp] theorem raiseFail_s549 (c : Cause) : (s.raiseFail c).s549 = s.s549 := rfl
@[simp] theorem raiseFail_port (c : Cause) : (s.raiseFail c).port = s.port := rfl

@[simp] theorem illegalCommand_family : (s.illegalCommand).family = s.family := rfl
@[simp] theorem illegalCommand_status : (s.illegalCommand).status = statusIllegal := rfl
@[simp] theorem illegalCommand_wide : (s.illegalCommand).wide = s.wide := rfl
@[simp] theorem illegalCommand_setup : (s.illegalCommand).setup = s.setup := rfl
@[simp] theorem illegalCommand_s570 : (s.illegalCommand).s570 = s.s570 := rfl
@[simp] theorem illegalCommand_s549 : (s.illegalCommand).s549 = s.s549 := rfl
@[simp] theorem illegalCommand_port : (s.illegalCommand).port = s.port := rfl

@[simp] theorem writeP_family (v : BitVec 48) : (s.writeP v).family = s.family := rfl
@[simp] theorem writeP_status (v : BitVec 48) : (s.writeP v).status = s.status := rfl
@[simp] theorem writeP_wide (v : BitVec 48) : (s.writeP v).wide = { s.wide with p := .holding v } := rfl
@[simp] theorem writeP_setup (v : BitVec 48) : (s.writeP v).setup = s.setup := rfl
@[simp] theorem writeP_s570 (v : BitVec 48) : (s.writeP v).s570 = s.s570 := rfl
@[simp] theorem writeP_s549 (v : BitVec 48) : (s.writeP v).s549 = s.s549 := rfl
@[simp] theorem writeP_port (v : BitVec 48) : (s.writeP v).port = s.port := rfl

@[simp] theorem writeQ_family (v : BitVec 48) : (s.writeQ v).family = s.family := rfl
@[simp] theorem writeQ_status (v : BitVec 48) : (s.writeQ v).status = s.status := rfl
@[simp] theorem writeQ_wide (v : BitVec 48) : (s.writeQ v).wide = { s.wide with q := .holding v } := rfl
@[simp] theorem writeQ_setup (v : BitVec 48) : (s.writeQ v).setup = s.setup := rfl
@[simp] theorem writeQ_s570 (v : BitVec 48) : (s.writeQ v).s570 = s.s570 := rfl
@[simp] theorem writeQ_s549 (v : BitVec 48) : (s.writeQ v).s549 = s.s549 := rfl
@[simp] theorem writeQ_port (v : BitVec 48) : (s.writeQ v).port = s.port := rfl

@[simp] theorem writeSolution_family (h : BitVec 4) (n1 : BitVec 8) (n : BitVec 16) : (s.writeSolution h n1 n).family = s.family := rfl
@[simp] theorem writeSolution_status (h : BitVec 4) (n1 : BitVec 8) (n : BitVec 16) : (s.writeSolution h n1 n).status = s.status := rfl
@[simp] theorem writeSolution_wide (h : BitVec 4) (n1 : BitVec 8) (n : BitVec 16) : (s.writeSolution h n1 n).wide = s.wide := rfl
@[simp] theorem writeSolution_setup (h : BitVec 4) (n1 : BitVec 8) (n : BitVec 16) : (s.writeSolution h n1 n).setup = s.setup := rfl
@[simp] theorem writeSolution_s570 (h : BitVec 4) (n1 : BitVec 8) (n : BitVec 16) : (s.writeSolution h n1 n).s570 = { s.s570 with hsDiv := .holding h, n1 := .holding n1, n := .holding n } := rfl
@[simp] theorem writeSolution_s549 (h : BitVec 4) (n1 : BitVec 8) (n : BitVec 16) : (s.writeSolution h n1 n).s549 = s.s549 := rfl
@[simp] theorem writeSolution_port (h : BitVec 4) (n1 : BitVec 8) (n : BitVec 16) : (s.writeSolution h n1 n).port = s.port := rfl

@[simp] theorem writeRfreq_family (v : BitVec 38) : (s.writeRfreq v).family = s.family := rfl
@[simp] theorem writeRfreq_status (v : BitVec 38) : (s.writeRfreq v).status = s.status := rfl
@[simp] theorem writeRfreq_wide (v : BitVec 38) : (s.writeRfreq v).wide = s.wide := rfl
@[simp] theorem writeRfreq_setup (v : BitVec 38) : (s.writeRfreq v).setup = s.setup := rfl
@[simp] theorem writeRfreq_s570 (v : BitVec 38) : (s.writeRfreq v).s570 = { s.s570 with rfreq := .holding v } := rfl
@[simp] theorem writeRfreq_s549 (v : BitVec 38) : (s.writeRfreq v).s549 = s.s549 := rfl
@[simp] theorem writeRfreq_port (v : BitVec 38) : (s.writeRfreq v).port = s.port := rfl

@[simp] theorem writeS549Dividers_family (h : BitVec 16) (l : BitVec 3) : (s.writeS549Dividers h l).family = s.family := rfl
@[simp] theorem writeS549Dividers_status (h : BitVec 16) (l : BitVec 3) : (s.writeS549Dividers h l).status = s.status := rfl
@[simp] theorem writeS549Dividers_wide (h : BitVec 16) (l : BitVec 3) : (s.writeS549Dividers h l).wide = s.wide := rfl
@[simp] theorem writeS549Dividers_setup (h : BitVec 16) (l : BitVec 3) : (s.writeS549Dividers h l).setup = s.setup := rfl
@[simp] theorem writeS549Dividers_s570 (h : BitVec 16) (l : BitVec 3) : (s.writeS549Dividers h l).s570 = s.s570 := rfl
@[simp] theorem writeS549Dividers_s549 (h : BitVec 16) (l : BitVec 3) : (s.writeS549Dividers h l).s549 = { s.s549 with hsDiv := .holding h, lsDiv := .holding l } := rfl
@[simp] theorem writeS549Dividers_port (h : BitVec 16) (l : BitVec 3) : (s.writeS549Dividers h l).port = s.port := rfl

@[simp] theorem writeFbDiv_family (v : BitVec 43) : (s.writeFbDiv v).family = s.family := rfl
@[simp] theorem writeFbDiv_status (v : BitVec 43) : (s.writeFbDiv v).status = s.status := rfl
@[simp] theorem writeFbDiv_wide (v : BitVec 43) : (s.writeFbDiv v).wide = s.wide := rfl
@[simp] theorem writeFbDiv_setup (v : BitVec 43) : (s.writeFbDiv v).setup = s.setup := rfl
@[simp] theorem writeFbDiv_s570 (v : BitVec 43) : (s.writeFbDiv v).s570 = s.s570 := rfl
@[simp] theorem writeFbDiv_s549 (v : BitVec 43) : (s.writeFbDiv v).s549 = { s.s549 with fbDiv := .holding v } := rfl
@[simp] theorem writeFbDiv_port (v : BitVec 43) : (s.writeFbDiv v).port = s.port := rfl

@[simp] theorem issue_family (rest : List HostEvent) : (s.issue rest).family = s.family := rfl
@[simp] theorem issue_status (rest : List HostEvent) : (s.issue rest).status = s.status := rfl
@[simp] theorem issue_wide (rest : List HostEvent) : (s.issue rest).wide = s.wide := rfl
@[simp] theorem issue_setup (rest : List HostEvent) : (s.issue rest).setup = s.setup := rfl
@[simp] theorem issue_s570 (rest : List HostEvent) : (s.issue rest).s570 = s.s570 := rfl
@[simp] theorem issue_s549 (rest : List HostEvent) : (s.issue rest).s549 = s.s549 := rfl
@[simp] theorem issue_port (rest : List HostEvent) : (s.issue rest).port = { s.port with pending := rest, issued := s.port.issued + 1 } := rfl

@[simp] theorem returnData_family (v : PortData) : (s.returnData v).family = s.family := rfl
@[simp] theorem returnData_status (v : PortData) : (s.returnData v).status = s.status := rfl
@[simp] theorem returnData_wide (v : PortData) : (s.returnData v).wide = s.wide := rfl
@[simp] theorem returnData_setup (v : PortData) : (s.returnData v).setup = s.setup := rfl
@[simp] theorem returnData_s570 (v : PortData) : (s.returnData v).s570 = s.s570 := rfl
@[simp] theorem returnData_s549 (v : PortData) : (s.returnData v).s549 = s.s549 := rfl
@[simp] theorem returnData_port (v : PortData) : (s.returnData v).port = { s.port with returned := s.port.returned ++ [v] } := rfl

@[simp] theorem blockReset_family : (s.blockReset).family = s.family := rfl
@[simp] theorem blockReset_status : (s.blockReset).status = 0x00 := rfl
@[simp] theorem blockReset_wide : (s.blockReset).wide = (State.resetFor s.family).wide := rfl
@[simp] theorem blockReset_setup : (s.blockReset).setup = (State.resetFor s.family).setup := rfl
@[simp] theorem blockReset_s570 : (s.blockReset).s570 = (State.resetFor s.family).s570 := rfl
@[simp] theorem blockReset_s549 : (s.blockReset).s549 = (State.resetFor s.family).s549 := rfl
@[simp] theorem blockReset_port : (s.blockReset).port = s.port := rfl

@[simp] theorem hostWrite_family (r : Reg) (v : PortData) : (s.hostWrite r v).family = s.family := by cases r <;> rfl
@[simp] theorem hostWrite_status (r : Reg) (v : PortData) : (s.hostWrite r v).status = s.status := by cases r <;> rfl
@[simp] theorem hostWrite_s570 (r : Reg) (v : PortData) : (s.hostWrite r v).s570 = s.s570 := by cases r <;> rfl
@[simp] theorem hostWrite_s549 (r : Reg) (v : PortData) : (s.hostWrite r v).s549 = s.s549 := by cases r <;> rfl
@[simp] theorem hostWrite_port (r : Reg) (v : PortData) : (s.hostWrite r v).port = s.port := by cases r <;> rfl

@[simp] theorem hostWrite_a (v : PortData) :
    (s.hostWrite .a v).wide = { s.wide with a := .holding (v.setWidth 32) } := rfl
@[simp] theorem hostWrite_a_setup (v : PortData) : (s.hostWrite .a v).setup = s.setup := rfl
@[simp] theorem hostWrite_b (v : PortData) :
    (s.hostWrite .b v).wide = { s.wide with b := .holding (v.setWidth 16) } := rfl
@[simp] theorem hostWrite_b_setup (v : PortData) : (s.hostWrite .b v).setup = s.setup := rfl
@[simp] theorem hostWrite_x (v : PortData) :
    (s.hostWrite .x v).wide = { s.wide with x := .holding (v.setWidth 48) } := rfl
@[simp] theorem hostWrite_x_setup (v : PortData) : (s.hostWrite .x v).setup = s.setup := rfl
@[simp] theorem hostWrite_d (v : PortData) :
    (s.hostWrite .d v).wide = { s.wide with d := .holding (v.setWidth 32) } := rfl
@[simp] theorem hostWrite_d_setup (v : PortData) : (s.hostWrite .d v).setup = s.setup := rfl
@[simp] theorem hostWrite_freq (v : PortData) :
    (s.hostWrite .freq v).setup = { s.setup with freq := .holding (v.setWidth 32) } := rfl
@[simp] theorem hostWrite_freq_wide (v : PortData) : (s.hostWrite .freq v).wide = s.wide := rfl
@[simp] theorem hostWrite_xtal (v : PortData) :
    (s.hostWrite .xtal v).setup = { s.setup with xtal := .holding (v.setWidth 32) } := rfl
@[simp] theorem hostWrite_xtal_wide (v : PortData) : (s.hostWrite .xtal v).wide = s.wide := rfl
@[simp] theorem hostWrite_dcoMin (v : PortData) :
    (s.hostWrite .dcoMin v).setup = { s.setup with dcoMin := .holding (v.setWidth 16) } := rfl
@[simp] theorem hostWrite_dcoMin_wide (v : PortData) : (s.hostWrite .dcoMin v).wide = s.wide := rfl
@[simp] theorem hostWrite_dcoMax (v : PortData) :
    (s.hostWrite .dcoMax v).setup = { s.setup with dcoMax := .holding (v.setWidth 16) } := rfl
@[simp] theorem hostWrite_dcoMax_wide (v : PortData) : (s.hostWrite .dcoMax v).wide = s.wide := rfl
@[simp] theorem hostWrite_grade (v : PortData) :
    (s.hostWrite .grade v).setup = { s.setup with grade := .holding (v.setWidth 2) } := rfl
@[simp] theorem hostWrite_grade_wide (v : PortData) : (s.hostWrite .grade v).wide = s.wide := rfl

/-- A host write to a register that is not RW is ignored (R43). -/
theorem hostWrite_of_not_rw (r : Reg) (v : PortData) (h : r.access ≠ .rw) : s.hostWrite r v = s := by
  cases r <;> first | rfl | exact absurd rfl h

/-- A register that holds a value shows it. -/
@[simp] theorem shown_of_held {w : Nat} (reg : Register w) (name : Reg) (n : Nat) (h : reg.held = true) :
    reg.shown name n = reg.word := by simp [Register.shown, h]

@[simp] theorem shown_holding {w : Nat} (v : BitVec w) (name : Reg) (n : Nat) :
    (Register.holding v).shown name n = v := rfl

/-- A register that holds no value shows a free value (R35, log 6). -/
theorem shown_of_not_held {w : Nat} (reg : Register w) (name : Reg) (n : Nat) (h : reg.held = false) :
    reg.shown name n = Config.unwrittenValue w name.number n := by simp [Register.shown, h]

@[simp] theorem opA_setStatus (v : BitVec 8) : (s.setStatus v).opA = s.opA := rfl
@[simp] theorem opB_setStatus (v : BitVec 8) : (s.setStatus v).opB = s.opB := rfl
@[simp] theorem opX_setStatus (v : BitVec 8) : (s.setStatus v).opX = s.opX := rfl
@[simp] theorem opD_setStatus (v : BitVec 8) : (s.setStatus v).opD = s.opD := rfl
@[simp] theorem opFreq_setStatus (v : BitVec 8) : (s.setStatus v).opFreq = s.opFreq := rfl
@[simp] theorem opXtal_setStatus (v : BitVec 8) : (s.setStatus v).opXtal = s.opXtal := rfl
@[simp] theorem opDcoMin_setStatus (v : BitVec 8) : (s.setStatus v).opDcoMin = s.opDcoMin := rfl
@[simp] theorem opDcoMax_setStatus (v : BitVec 8) : (s.setStatus v).opDcoMax = s.opDcoMax := rfl
@[simp] theorem opGrade_setStatus (v : BitVec 8) : (s.setStatus v).opGrade = s.opGrade := rfl
@[simp] theorem opS570N_setStatus (v : BitVec 8) : (s.setStatus v).opS570N = s.opS570N := rfl
@[simp] theorem opHsDiv_setStatus (v : BitVec 8) : (s.setStatus v).opHsDiv = s.opHsDiv := rfl
@[simp] theorem opLsDiv_setStatus (v : BitVec 8) : (s.setStatus v).opLsDiv = s.opLsDiv := rfl

end Sys2Proof.Machine
end

