-- ==== Sys2Proof/Laws/Ops.lean ====
section
/-! SUPPORT. What the shared operations over registers can do: the register map, a command of one family, reading back
what was written. -/

namespace Sys2Proof.Machine

/-- Every register is on the list of registers. -/
theorem mem_allRegs (r : Reg) : r ∈ allRegs := by cases r <;> decide

/-- No two registers share a number (R41). -/
theorem number_injective (r r' : Reg) (h : r.number = r'.number) : r = r' := by
  revert h; cases r <;> cases r' <;> decide

/-- A number maps to a register exactly where the register exists in the build and has that number. -/
theorem regAt_eq_some (fam : Family) (n : RegNumber) (r : Reg) :
    regAt fam n = some r ↔ r.presentIn fam = true ∧ r.number = n := by
  constructor
  · intro h
    have := List.find?_some h
    simpa using this
  · rintro ⟨hp, rfl⟩
    cases fam <;> revert hp <;> cases r <;> decide

/-- Number 0 is CMD in both builds. -/
@[simp] theorem regAt_cmd (fam : Family) : regAt fam 0#5 = some .cmd := by cases fam <;> decide

/-- What a family-bound command can do: run in its own build, be illegal in the other (R66). -/
theorem onlyIn_cases (s : State) (fam : Family) (run : State → State) :
    (s.family = fam ∧ s.onlyIn fam run = run s) ∨ (s.family ≠ fam ∧ s.onlyIn fam run = s.illegalCommand) := by
  by_cases h : s.family = fam
  · exact .inl ⟨h, by simp [State.onlyIn, h]⟩
  · exact .inr ⟨h, by simp [State.onlyIn, h]⟩

/-- Held registers stay held under a host write. -/
theorem hostWrite_holds (s : State) (r r' : Reg) (v : PortData) (h : s.holds r' = true) :
    (s.hostWrite r v).holds r' = true := by
  cases r <;> first | exact h | (cases r' <;> first | rfl | exact h)

end Sys2Proof.Machine
end

