-- ==== Sys2Proof/Laws/PerInstr.lean ====
section
/-! SUPPORT. A fact about every command as syntax: its word lies on its row of the opcode map (R63). -/

namespace Sys2Proof

/-- The mask of a command's row (R63). -/
def Instr.rowMask : Instr → CommandWord
  | .divw _ => 0xFC0F
  | .mulw => 0xFFFF
  | .s570find => 0xFFFF
  | .s570rfreq => 0xFFFF
  | .s549div => 0xFFFF
  | .s549fbdiv => 0xFFFF

/-- The match value of a command's row (R63). -/
def Instr.rowMatch : Instr → CommandWord
  | .mulw => 0x0001
  | .divw _ => 0x0002
  | .s570find => 0x0004
  | .s570rfreq => 0x0005
  | .s549div => 0x0008
  | .s549fbdiv => 0x0009

namespace Laws

/-- The command's word has the fixed bits of its row of the opcode map. -/
def WordOnRow.Statement (i : Instr) : Prop :=
  encode i &&& i.rowMask = i.rowMatch

theorem WordOnRow.mulw : WordOnRow.Statement .mulw := rfl

theorem WordOnRow.divw (f : BitVec 6) : WordOnRow.Statement (.divw f) := by
  have h : ∀ f : BitVec 6, encode (.divw f) &&& (Instr.divw f).rowMask = (Instr.divw f).rowMatch := by decide +kernel
  exact h f

theorem WordOnRow.s570find : WordOnRow.Statement .s570find := rfl

theorem WordOnRow.s570rfreq : WordOnRow.Statement .s570rfreq := rfl

theorem WordOnRow.s549div : WordOnRow.Statement .s549div := rfl

theorem WordOnRow.s549fbdiv : WordOnRow.Statement .s549fbdiv := rfl

end Laws
end Sys2Proof
end

