-- ==== Sys2Proof/Laws/Step.lean ====
section
/-! SUPPORT. What a step and a command can do, said once. -/

namespace Sys2Proof.Machine

/-- With nothing pending the machine idles. -/
theorem step_idle (s : State) (h : s.port.pending = []) : step s = .next s := by
  simp [step, nextEvent, h]

/-- With an event pending, a step performs it in the state in which it is issued. -/
theorem step_pending (s : State) (e : HostEvent) (rest : List HostEvent) (h : s.port.pending = e :: rest) :
    step s = perform e (s.issue rest) := by
  simp [step, nextEvent, h]

/-- What a host write can do: run a command word, write an RW register, or nothing (R43). -/
theorem portWrite_cases (n : RegNumber) (v : PortData) (s : State) :
    (n = 0 ∧ portWrite n v s = runCommandWord (commandWordOf v) s) ∨
    (∃ r : Reg, r ≠ .cmd ∧ regAt s.family n = some r ∧ portWrite n v s = .next (s.hostWrite r v)) ∨
    (regAt s.family n = none ∧ portWrite n v s = .next s) := by
  unfold portWrite
  cases h : regAt s.family n with
  | none => exact .inr (.inr ⟨rfl, rfl⟩)
  | some r =>
    by_cases hc : r = .cmd
    · subst hc
      exact .inl ⟨((regAt_eq_some _ _ _).1 h).2.symm, rfl⟩
    · refine .inr (.inl ⟨r, hc, rfl, ?_⟩)
      cases r <;> first | rfl | exact absurd rfl hc

/-- What a write to CMD can do: execute the command decoded, or be illegal (R46, R65). -/
theorem runCommandWord_cases (w : CommandWord) (s : State) :
    (∃ i, decode s.family w = some i ∧ runCommandWord w s = exec i s) ∨
    (decode s.family w = none ∧ runCommandWord w s = .next s.illegalCommand) := by
  unfold runCommandWord decode
  cases decodeCommand s.family w with
  | command i => exact .inl ⟨i, rfl, rfl⟩
  | illegal why => exact .inr ⟨rfl, rfl⟩

/-- What a command can do: each has its effect in a build that has it, and is illegal in the other. -/
theorem exec_mulw (s : State) : exec .mulw s = .next (s.writeP (mulw s.opA s.opB)).complete := rfl

theorem exec_divw (f : BitVec 6) (s : State) :
    exec (.divw f) s = .next (s.writeQ (divwTotal s.opX s.opD f)).complete := rfl

theorem exec_s570find (s : State) (h : s.family = .si570) : exec .s570find s = .next (runFind s) := by
  simp [exec, execS570find, State.onlyIn, h]

theorem exec_s570rfreq (s : State) (h : s.family = .si570) : exec .s570rfreq s = .next (runRfreq s) := by
  simp [exec, execS570rfreq, State.onlyIn, h]

theorem exec_s549div (s : State) (h : s.family = .si549) : exec .s549div s = .next (runS549div s) := by
  simp [exec, execS549div, State.onlyIn, h]

theorem exec_s549fbdiv (s : State) (h : s.family = .si549) : exec .s549fbdiv s = .next (runFbdiv s) := by
  simp [exec, execS549fbdiv, State.onlyIn, h]

/-- A successful search writes the solution, a failed one STATUS alone (R104). -/
theorem runFind_cases (s : State) :
    (findDivider s.findOperands = none ∧ runFind s = s.raiseFail .noDiv) ∨
    (∃ sol, findDivider s.findOperands = some sol ∧
      runFind s = (s.writeSolution (BitVec.ofNat 4 sol.hsDiv) (BitVec.ofNat 8 sol.n1)
        (BitVec.ofNat 16 sol.product)).complete) := by
  unfold runFind
  cases findDivider s.findOperands with
  | none => exact .inl ⟨rfl, rfl⟩
  | some sol => exact .inr ⟨sol, rfl, rfl⟩

/-- RFREQ is written, or the command fails with DCOHI and writes STATUS alone (R105). -/
theorem runRfreq_cases (s : State) :
    ((mulw s.opFreq s.opS570N).toNat > mhz s.opDcoMax ∧ runRfreq s = s.raiseFail .dcoHi) ∨
    ((mulw s.opFreq s.opS570N).toNat ≤ mhz s.opDcoMax ∧
      runRfreq s = (s.writeRfreq ((divwTotal (mulw s.opFreq s.opS570N) s.opXtal 31#6).setWidth 38)).complete) := by
  unfold runRfreq
  by_cases h : (mulw s.opFreq s.opS570N).toNat > mhz s.opDcoMax
  · exact .inl ⟨h, by simp [h]⟩
  · exact .inr ⟨by omega, by simp [h]⟩

end Sys2Proof.Machine
end

