-- ==== Sys2Proof/Tests/Slice0.lean ====
section
/-! SUPPORT. Tests: words written out from R61 and R63, the smoke test of `WellFormed`, vectors of 95_test_vectors.md
(each named in its comment), and, for every statement with hypotheses, a state and operands that meet them. -/

namespace Sys2Proof.Tests

open Sys2Proof.Machine Sys2Proof.Config

/-! ### Helpers -/

/-- The state that an outcome goes on in. -/
def nextOf : StepOutcome → Option State
  | .next s => some s
  | .fault _ => none
  | .refused _ => none

/-- A block with MULW's and DIVW's operands written. -/
def wideAt (a : BitVec 32) (b : BitVec 16) (x : BitVec 48) (d : BitVec 32) : State :=
  { State.resetFor .si570 with
    wide := { (State.resetFor .si570).wide with a := .holding a, b := .holding b, x := .holding x, d := .holding d } }

/-- The configuration registers, all written. -/
def setupAt (freq xtal : BitVec 32) (dcoMin dcoMax : BitVec 16) (grade : BitVec 2) : SetupRegs :=
  { freq := .holding freq, xtal := .holding xtal, dcoMin := .holding dcoMin, dcoMax := .holding dcoMax,
    grade := .holding grade }

/-- An SI570 block with the given setup and a cached solution (N1, HS_DIV) = (16, 11) of product 176. -/
def si570At (freq xtal : BitVec 32) (dcoMin dcoMax : BitVec 16) (grade : BitVec 2) : State :=
  { State.resetFor .si570 with
    setup := setupAt freq xtal dcoMin dcoMax grade
    s570 := { hsDiv := .holding 11, n1 := .holding 16, n := .holding 176, rfreq := .noValue } }

/-- An SI549 block with the given setup and dividers. -/
def si549At (freq xtal : BitVec 32) (dcoMin : BitVec 16) (hsDiv : BitVec 16) (lsDiv : BitVec 3) : State :=
  { State.resetFor .si549 with
    setup := setupAt freq xtal dcoMin 0 0
    s549 := { hsDiv := .holding hsDiv, lsDiv := .holding lsDiv, fbDiv := .noValue } }

/-- A block fresh from reset, with the host's events. -/
def pendingAt (fam : Family) (events : List HostEvent) : State :=
  { State.resetFor fam with port := { pending := events, issued := 0, returned := [] } }

/-! ### Decoding (R61, R63; V-ENC rows) -/

/-- Z = 000000, F = 000000, OP = 0001. -/
theorem test_decode_mulw : decode .si549 0b000000_000000_0001#16 = some .mulw := by decide
/-- F = 31 in bits 9:4. -/
theorem test_decode_divw : decode .si570 0b000000_011111_0010#16 = some (.divw 31) := by decide
theorem test_decode_s570find : decode .si570 0b000000_000000_0100#16 = some .s570find := by decide
theorem test_decode_s570rfreq : decode .si570 0b000000_000000_0101#16 = some .s570rfreq := by decide
theorem test_decode_s549div : decode .si549 0b000000_000000_1000#16 = some .s549div := by decide
theorem test_decode_s549fbdiv : decode .si549 0b000000_000000_1001#16 = some .s549fbdiv := by decide
/-- V-ENC-7: the encoder writes F at bits 9:4. -/
theorem test_encode_divw : encode (.divw 63) = 0x03F2#16 := by decide
/-- V-ENC-1, 2, 4, 5, 8, 9, 14: illegal words, by their reasons. -/
theorem test_illegal_words :
    [0x0000, 0xFFFF, 0x0011, 0x0401, 0x0402, 0x0003, 0x0014].map (decodeCommand .si570) =
      [.illegal .opUnassigned, .illegal .zNotZero, .illegal .fNotZero, .illegal .zNotZero, .illegal .zNotZero,
       .illegal .opUnassigned, .illegal .fNotZero] := by decide
/-- V-ENC-10 to 13: the other family's words. -/
theorem test_absent_family :
    [0x0004, 0x0005].map (decodeCommand .si549) = [.illegal .absentFamily, .illegal .absentFamily] ∧
    [0x0008, 0x0009].map (decodeCommand .si570) = [.illegal .absentFamily, .illegal .absentFamily] := by decide

/-- The check of `WellFormed` refuses the commands of the other family. -/
theorem test_wellFormed_refuses_other_family :
    ¬ Instr.WellFormed .si549 .s570find ∧ ¬ Instr.WellFormed .si549 .s570rfreq ∧
    ¬ Instr.WellFormed .si570 .s549div ∧ ¬ Instr.WellFormed .si570 .s549fbdiv := by decide

/-! ### Commands (95_test_vectors.md section 2) -/

/-- V-MULW-7. -/
theorem test_mulw : (nextOf (exec .mulw (wideAt 0x12345678 0x9ABC 0 0))).map (fun t => (t.wide.p, t.status)) =
    some (.holding 0x0B00DA73B020, 0x00) := by decide
/-- V-MULW-2. -/
theorem test_mulw_largest : (nextOf (exec .mulw (wideAt 0xFFFFFFFF 0xFFFF 0 0))).map (fun t => t.wide.p) =
    some (.holding 0xFFFEFFFF0001) := by decide
/-- V-DIVW-13: the high bits of the dividend survive the shift. -/
theorem test_divw_keeps_high_bits :
    (nextOf (exec (.divw 31) (wideAt 0 0 0xFFFFFFFFFFFF 0xFFFFFFFF))).map (fun t => (t.wide.q, t.status)) =
      some (.holding 0x800000007FFF, 0x00) := by decide
/-- V-DIVW-20: the largest shift, in the domain. -/
theorem test_divw_largest_shift :
    (nextOf (exec (.divw 63) (wideAt 0 0 1 0xFFFFFFFF))).map (fun t => t.wide.q) =
      some (.holding 0x000080000000) := by decide
/-- V-S570-1: a tie at 176, the larger HS_DIV wins. -/
theorem test_s570find_tie :
    (nextOf (exec .s570find (si570At 0x03866666 0 4850 5670 0))).map (fun t => (t.s570, t.status)) =
      some ({ hsDiv := .holding 11, n1 := .holding 16, n := .holding 176, rfreq := .noValue }, 0x00) := by decide +kernel
/-- V-S570-5: only (1, 4) is in range and grade C excludes it; the old solution stays. -/
theorem test_s570find_excluded :
    (nextOf (exec .s570find (si570At 0x97900000 0 4850 5670 2))).map (fun t => (t.s570.n, t.status)) =
      some (.holding 176, 0x05) := by decide
/-- V-S570-34: the largest FREQ that passes with N = 176. -/
theorem test_s570rfreq :
    (nextOf (exec .s570rfreq (si570At 0x0406E8BA 0x7248F5C2 4850 5670 0))).map (fun t => (t.s570.rfreq, t.status)) =
      some (.holding 0x0319CE11D1, 0x00) := by decide
/-- V-S570-35: one more fails, and RFREQ is not written. -/
theorem test_s570rfreq_too_high :
    (nextOf (exec .s570rfreq (si570At 0x0406E8BB 0x7248F5C2 4850 5670 0))).map (fun t => (t.s570.rfreq, t.status)) =
      some (.noValue, 0x09) := by decide
/-- V-S549-3: the ceiling 1543, odd, becomes 1544. -/
theorem test_s549div_odd :
    (nextOf (exec .s549div (si549At 0x00E19999 0 10800 0 0))).map (fun t => (t.s549.hsDiv, t.s549.lsDiv)) =
      some (.holding 1544, .holding 0) := by decide
/-- V-S549-13: a total divider of 4320. -/
theorem test_s549div_shifted :
    (nextOf (exec .s549div (si549At 0x00500000 0 10800 0 0))).map (fun t => (t.s549.hsDiv, t.s549.lsDiv)) =
      some (.holding 2160, .holding 1) := by decide
/-- The row of pure checks of R123: t to (LSDIV, HSDIV). -/
theorem test_total_divider_split :
    [33, 34, 35, 2045, 2046, 2047, 4091, 4092, 4093, 65471, 65472, 65535, 65536, 524280].map
        (fun t => (lsDivOf t, hsDivOf t)) =
      [(0, 33), (0, 34), (0, 36), (0, 2046), (0, 2046), (0, 2048), (0, 4092), (1, 2046), (1, 2046), (4, 4091),
       (5, 2046), (5, 2047), (5, 2048), (5, 16383)] := by decide
/-- V-S549-3. -/
theorem test_s549fbdiv :
    (nextOf (exec .s549fbdiv (si549At 0x00E19999 0x98999999 10800 1544 0))).map (fun t => (t.s549.fbDiv, t.status)) =
      some (.holding 0x04754E29F10, 0x00) := by decide
/-- V-S549-13: LSDIV takes part in the product. -/
theorem test_s549fbdiv_shifted :
    (nextOf (exec .s549fbdiv (si549At 0x00500000 0x98999999 10800 2160 1))).map (fun t => t.s549.fbDiv) =
      some (.holding 0x046C5F497EE) := by decide

/-! ### The port (program P5) -/

/-- P5 line 7: data bits 47:32 are dropped. -/
theorem test_write_is_cut :
    (nextOf (step (pendingAt .si570 [.write 0x02 0x000100000003]))).map (fun t => t.wide.a) =
      some (.holding 0x00000003) := by decide
/-- P5 lines 10 and 11: writes to P and to an unmapped number are ignored. -/
theorem test_ignored_writes :
    (nextOf (step (pendingAt .si570 [.write 0x06 0x123]))).map (fun t => t.wide) =
      some (State.resetFor .si570).wide ∧
    (nextOf (step (pendingAt .si570 [.write 0x1F 1]))).map (fun t => t.wide) =
      some (State.resetFor .si570).wide := by decide
/-- P5 lines 12 to 14: unmapped numbers, the other family's, and CMD read as 0. -/
theorem test_reads_of_nothing :
    [0x1F, 0x18, 0x00].map (fun n => (nextOf (step (pendingAt .si570 [.read n]))).map (fun t => t.port.returned)) =
      [some [0], some [0], some [0]] := by decide
/-- P5 line 5: S549DIV in an SI570 build. -/
theorem test_illegal_sets_status :
    (nextOf (step (pendingAt .si570 [.write 0x00 0x0008]))).map (fun t => t.status) = some 0x02 := by decide

/-! ### Witnesses: hypotheses of the statements are met -/

theorem test_witness_DecodeOfEncode :
    Instr.WellFormed .si570 (.divw 63) ∧ Instr.WellFormed .si549 .s549fbdiv ∧ Instr.WellFormed .si570 .s570find := by
  decide
theorem test_witness_EncodeOfDecode : decode .si549 0x0009 = some .s549fbdiv ∧ decode .si570 0x03F2 = some (.divw 63) := by
  decide
theorem test_witness_IllegalWordsWriteOnlyStatus :
    decode (State.resetFor .si570).family ((0xABCD00000008 : PortData).setWidth 16) = none ∧
    Instr.WellFormed (State.resetFor .si570).family .s570find := by decide
theorem test_witness_AbsentCommandsAreIllegal : ¬ Instr.WellFormed (State.resetFor .si549).family .s570find := by decide
theorem test_witness_HighCommandDataIsIgnored :
    (0xABCD00000001 : PortData).setWidth 16 = (0x000000000001 : PortData).setWidth 16 := by decide
theorem test_witness_StepRunsTheDecodedCommand :
    (pendingAt .si549 [.write 0x00 0xFFFF00000009, .reset]).port.pending = .write 0x00 0xFFFF00000009 :: [.reset] ∧
    decode (pendingAt .si549 []).family ((0xFFFF00000009 : PortData).setWidth 16) = some .s549fbdiv := by decide
theorem test_witness_FetchWordRunsNext : Instr.WellFormed State.reset.family .s570find := by decide
theorem test_witness_EveryEventIsOneCompletedStep :
    (pendingAt .si570 [.read 0x01]).port.pending = .read 0x01 :: [] ∧
    (pendingAt .si570 [.write 0x1F 0, .reset]).port.pending = .write 0x1F 0 :: [.reset] ∧
    (pendingAt .si549 [.reset]).port.pending = .reset :: [] := by decide
/-- In the domain up to its edge (V-DIVW-10), beyond it by one (V-DIVW-4), and with a zero divisor (V-DIVW-30). -/
theorem test_witness_DivwWritesTheFloorQuotient :
    ((wideAt 0 0 0xFFFFFFFFFFFF 1).opD.toNat ≠ 0 ∧
      (wideAt 0 0 0xFFFFFFFFFFFF 1).opX.toNat * 2 ^ (0#6).toNat < (wideAt 0 0 0 1).opD.toNat * 2 ^ 48) ∧
    ¬ ((wideAt 0 0 1 1).opD.toNat ≠ 0 ∧ (wideAt 0 0 1 1).opX.toNat * 2 ^ (48#6).toNat < (wideAt 0 0 1 1).opD.toNat * 2 ^ 48) ∧
    ¬ ((wideAt 0 0 0 0).opD.toNat ≠ 0 ∧ (wideAt 0 0 0 0).opX.toNat * 2 ^ (0#6).toNat < (wideAt 0 0 0 0).opD.toNat * 2 ^ 48) ∧
    ((1 : BitVec 32) ≠ 0 ∧ (0xFFFF : BitVec 48).toNat < 2 ^ (48 - (32#6).toNat)) := by decide
theorem test_witness_DivideInvertsMultiply :
    (0xFFFFFFFF : BitVec 32) ≠ 0 ∧ (0xFFFFFFFFFFFF : BitVec 48).toNat * 2 ^ (31#6).toNat / (0xFFFFFFFF : BitVec 32).toNat < 2 ^ 48 := by
  decide
theorem test_witness_RestoringDivisionComputesTheQuotient :
    DivwDomain 0xFFFFFFFFFFFF 0xFFFFFFFF 31 ∧ ¬ DivwDomain 0xFFFFFFFFFFFF 0xFFFFFFFF 32 ∧ (0xFFFFFFFF : BitVec 32) ≠ 0 := by
  decide
theorem test_witness_CandidateIsTheLeastLegalN1 :
    LegalHsDiv 11 ∧ LegalHsDiv 4 ∧ (0x03866666 : BitVec 32) ≠ 0 := by decide
/-- V-S570-7: no pair is valid. V-S570-3: the pair (1, 6) is valid with the DCO at DCOMAX exactly. -/
theorem test_witness_FindStoresTheBestValidPair :
    ((si570At 0 0 4850 5670 0).family = .si570 ∧ ∀ hs n, ¬ ValidPair (si570At 0 0 4850 5670 0).findOperands hs n) ∧
    ((si570At 0x76200000 0 4850 5670 0).family = .si570 ∧ ValidPair (si570At 0x76200000 0 4850 5670 0).findOperands 6 1) := by
  refine ⟨⟨rfl, ?_⟩, rfl, by decide, by decide, by decide, by decide, by decide⟩
  rintro hs n ⟨_, h, _⟩
  cases h
/-- FREQ = 0; limits one apart; FREQ × 1408 one unit below DCOMIN; FREQ × 4 one unit above DCOMAX. -/
theorem test_witness_FindFailsOutOfReach :
    (si570At 0 0 0 0 0).opFreq = 0 ∧
    (si570At 1 0 1 0 0).opDcoMax.toNat < (si570At 1 0 1 0 0).opDcoMin.toNat ∧
    (si570At 1489 0 1 1 0).opFreq.toNat * 1408 < (si570At 1489 0 1 1 0).opDcoMin.toNat * 2 ^ 21 ∧
    (si570At 524289 0 0 1 0).opDcoMax.toNat * 2 ^ 21 < (si570At 524289 0 0 1 0).opFreq.toNat * 4 := by decide
theorem test_witness_FindWithoutLowerLimitChoosesOneFour :
    (si570At 0x01400000 0 0 5670 0).family = .si570 ∧ (si570At 0x01400000 0 0 5670 0).opDcoMin = 0 ∧
    (si570At 0x01400000 0 0 5670 0).opFreq ≠ 0 ∧
    (si570At 0x01400000 0 0 5670 0).opFreq.toNat * 4 ≤ (si570At 0x01400000 0 0 5670 0).opDcoMax.toNat * 2 ^ 21 ∧
    excl (si570At 0x01400000 0 0 5670 0).opGrade 1 4 = false := by decide
theorem test_witness_GradeCNeverGetsOneFour :
    (si570At 0x97900000 0 4850 5670 2).family = .si570 ∧ (si570At 0x97900000 0 4850 5670 2).opGrade = .c := by decide
theorem test_witness_GradeATakesNoExclusionTest :
    (si570At 0x97900000 0 4850 5670 0).family = .si570 ∧ (si570At 0x97900000 0 4850 5670 0).opGrade = .a ∧ LegalHsDiv 4 ∧
    cand (si570At 0x97900000 0 4850 5670 0).opFreq (si570At 0x97900000 0 4850 5670 0).opDcoMin 4 = some 1 ∧
    (si570At 0x97900000 0 4850 5670 0).opFreq.toNat * 1 * 4 ≤ (si570At 0x97900000 0 4850 5670 0).opDcoMax.toNat * 2 ^ 21 := by
  decide
theorem test_witness_FindReadsOnlyItsOperands :
    (si570At 0x03866666 1 4850 5670 0).opFreq = (si570At 0x03866666 2 4850 5670 0).opFreq ∧
    (si570At 0x03866666 1 4850 5670 0).opDcoMin = (si570At 0x03866666 2 4850 5670 0).opDcoMin ∧
    (si570At 0x03866666 1 4850 5670 0).opDcoMax = (si570At 0x03866666 2 4850 5670 0).opDcoMax ∧
    (si570At 0x03866666 1 4850 5670 0).opGrade = (si570At 0x03866666 2 4850 5670 0).opGrade := by decide
/-- V-S570-35 and V-S570-34: the two sides of the DCO test; a crystal in the domain, and a zero crystal (V-S570-38). -/
theorem test_witness_RfreqStoresTheRatioOrFails :
    (si570At 0x0406E8BB 0 0 5670 0).opFreq.toNat * (si570At 0x0406E8BB 0 0 5670 0).opS570N.toNat >
      (si570At 0x0406E8BB 0 0 5670 0).opDcoMax.toNat * 2 ^ 21 ∧
    (si570At 0x0406E8BA 0x7248F5C2 0 5670 0).opFreq.toNat * (si570At 0x0406E8BA 0x7248F5C2 0 5670 0).opS570N.toNat ≤
      (si570At 0x0406E8BA 0x7248F5C2 0 5670 0).opDcoMax.toNat * 2 ^ 21 ∧
    ((si570At 0x0406E8BA 0x7248F5C2 0 5670 0).opXtal ≠ 0 ∧
      (si570At 0x0406E8BA 0x7248F5C2 0 5670 0).opFreq.toNat * (si570At 0x0406E8BA 0x7248F5C2 0 5670 0).opS570N.toNat * 2 ^ 31 <
        (si570At 0x0406E8BA 0x7248F5C2 0 5670 0).opXtal.toNat * 2 ^ 48) ∧
    (si570At 0x03866666 0 0 5670 0).opXtal = 0 := by decide
theorem test_witness_CrystalAboveASixteenthIsInDomain :
    (si570At 0x0406E8BA 0x00100001 0 5670 0).opFreq.toNat * (si570At 0x0406E8BA 0x00100001 0 5670 0).opS570N.toNat ≤
      (si570At 0x0406E8BA 0x00100001 0 5670 0).opDcoMax.toNat * 2 ^ 21 ∧
    2 ^ 20 < (si570At 0x0406E8BA 0x00100001 0 5670 0).opXtal.toNat := by decide
/-- V-S570-1, and a later state of the same block that differs in its crystal and position only. -/
theorem test_witness_FreshSolutionNeverExceedsDcoMax :
    ∃ t, exec .s570find (si570At 0x03866666 0 4850 5670 0) = .next t ∧ t.status = 0x00 ∧
      (si570At 0x03866666 9 4850 5670 0).opFreq = (si570At 0x03866666 0 4850 5670 0).opFreq ∧
      (si570At 0x03866666 9 4850 5670 0).opDcoMax = (si570At 0x03866666 0 4850 5670 0).opDcoMax ∧
      (si570At 0x03866666 9 4850 5670 0).s570.n = t.s570.n :=
  ⟨_, rfl, by decide, by decide, by decide, by decide⟩
/-- V-S549-17 and V-S549-16: the two sides of the domain. -/
theorem test_witness_S549DivSplitsTheTotalDivider :
    (si549At 0x0003FFFF 0 10800 0 0).family = .si549 ∧ (si549At 0x0003FFFF 0 10800 0 0).opFreq.toNat < 0x00040000 ∧
    0x00040000 ≤ (si549At 0x00040000 0 10800 0 0).opFreq.toNat := by decide
/-- LSDIV 0 (V-S549-1), 1 (V-S549-13) and 5 (V-S549-16) all occur. -/
theorem test_witness_S549DividerRanges :
    [0x0C800000, 0x00500000, 0x00040000].map
        (fun f => ((nextOf (exec .s549div (si549At f 0 10800 0 0))).map (fun t => t.s549.lsDiv.word.toNat), decide (0x00040000 ≤ f.toNat))) =
      [(some 0, true), (some 1, true), (some 5, true)] := by decide
/-- Divider products 65536 and 65535, a crystal in the domain, and a zero crystal. -/
theorem test_witness_FbdivStoresTheRatio :
    2 ^ 16 ≤ (si549At 1 1 0 2048 5).opHsDiv.toNat * 2 ^ (si549At 1 1 0 2048 5).opLsDiv.toNat ∧
    (si549At 1 1 0 65535 0).opHsDiv.toNat * 2 ^ (si549At 1 1 0 65535 0).opLsDiv.toNat < 2 ^ 16 ∧
    ((si549At 1 0xFFFFFFFF 0 1 0).opXtal ≠ 0 ∧ 1 * 2 ^ 35 < (si549At 1 0xFFFFFFFF 0 1 0).opXtal.toNat * 2 ^ 48) ∧
    (si549At 1 0 0 1 0).opXtal = 0 := by decide
/-- V-S549-16: the product of the dividers just computed is 86400. -/
theorem test_witness_WideDividerProductIsUnspecified :
    0x00040000 ≤ (si549At 0x00040000 0 10800 0 0).opFreq.toNat ∧
    (nextOf (exec .s549div (si549At 0x00040000 0 10800 0 0))).map
      (fun t => decide (2 ^ 16 ≤ t.s549.hsDiv.word.toNat * 2 ^ t.s549.lsDiv.word.toNat)) = some true := by decide
theorem test_witness_IllegalIsNotAFailure :
    decode (State.resetFor .si549).family ((0x0000 : PortData).setWidth 16) = none := by decide
theorem test_witness_FailuresArePrecise :
    (nextOf (runCommandWord 0x0004 (si570At 0 0 4850 5670 0))).map (fun t => decide (t.status ≠ 0x00)) = some true := by
  decide
theorem test_witness_CommandsWriteOnlyTheirResults :
    Instr.WellFormed (si570At 0x03866666 0 4850 5670 0).family .s570find ∧
    (nextOf (exec .s570find (si570At 0x03866666 0 4850 5670 0))).map (fun t => t.status) = some 0x00 ∧
    (nextOf (exec .s570find (si570At 0 0 4850 5670 0))).map (fun t => t.status) = some 0x05 ∧
    decode (si570At 0 0 4850 5670 0).family 0xFFFF = none := by decide
/-- The narrowest and a widest RW register, CMD, an RO register, and the unmapped numbers beside mapped ones. -/
theorem test_witness_HostWrites :
    (regAt .si570 0x0C = some .grade ∧ Reg.grade.access = .rw) ∧ (regAt .si549 0x04 = some .x ∧ Reg.x.access = .rw) ∧
    (regAt .si570 0x13 = some .s570Rfreq ∧ Reg.s570Rfreq.access = .ro) ∧
    regAt .si570 0x0D = none ∧ regAt .si570 0x18 = none ∧ regAt .si549 0x1B = none := by decide
theorem test_witness_HostReads :
    regAt .si570 0x12 = some .s570N ∧ (si570At 0 0 0 0 0).holds .s570N = true ∧ regAt .si570 0x14 = none := by decide
/-- A register without a value for reads and for commands, one with, and GRADE with its largest code. -/
theorem test_witness_RegistersWithoutAValueShowFreeValues :
    regAt State.reset.family 0x06 = some .p ∧ State.reset.holds .p = false ∧
    State.reset.wide.a.held = false ∧ State.reset.s549.lsDiv.held = false ∧ State.reset.setup.grade.held = false ∧
    (wideAt 5 0 0 0).wide.a.held = true ∧ (wideAt 5 0 0 0).opA = 5 ∧
    (si570At 0 0 0 0 3).setup.grade.held = true ∧ (si570At 0 0 0 0 3).opGrade = .d := by decide

/-- After the write of GRADE come an ignored write, a write of A, MULW and a read of P: none of them writes GRADE. -/
def gradeWritten : State :=
  pendingAt .si570 [.write 0x0C 7, .write 0x13 0, .write 0x02 1, .write 0x00 0x0001, .read 0x06, .read 0x0C, .reset]

theorem test_witness_ReadReturnsTheLatestWrite_host :
    regAt gradeWritten.family 0x0C = some .grade ∧ Reg.grade.access = .rw ∧
    ∃ t, step gradeWritten = .next t ∧
      t.port.pending = [.write 0x13 0, .write 0x02 1, .write 0x00 0x0001, .read 0x06] ++ .read 0x0C :: [.reset] ∧
      ∀ k x, k < 4 → core.run k t = .next x → nextEventWrites x .grade = false := by
  refine ⟨by decide, rfl, _, rfl, rfl, ?_⟩
  intro k x hk h
  interval_cases k <;> cases h <;> rfl

/-- After a successful S570FIND (V-S570-1) come a write of FREQ = 0 and a search that fails: they leave S570_N. -/
def solutionFound : State :=
  { si570At 0x03866666 0 4850 5670 0 with
    port := (pendingAt .si570 [.write 0x00 0x0004, .write 0x08 0, .write 0x00 0x0004, .read 0x12]).port }

theorem test_witness_ReadReturnsTheLatestWrite_command :
    regAt solutionFound.family 0x12 = some .s570N ∧
    decode solutionFound.family ((0x0004 : PortData).setWidth 16) = some .s570find ∧
    Reg.s570N ∈ resultsOf .s570find ∧
    ∃ t, step solutionFound = .next t ∧ t.status = 0x00 ∧
      t.port.pending = [.write 0x08 0, .write 0x00 0x0004] ++ .read 0x12 :: [] ∧
      ∀ k x, k < 2 → core.run k t = .next x → nextEventWrites x .s570N = false := by
  refine ⟨by decide, by decide, by decide, _, rfl, by decide, rfl, ?_⟩
  intro k x hk h
  interval_cases k <;> cases h <;> decide

/-- R167: the result is read in the transaction right after the command that wrote it. -/
theorem test_witness_ReadReturnsTheLatestWrite_at_once :
    regAt (pendingAt .si549 []).family 0x06 = some .p ∧ Reg.p ∈ resultsOf .mulw ∧
    ∃ t, step (pendingAt .si549 [.write 0x00 0x0001, .read 0x06]) = .next t ∧ t.status = 0x00 ∧
      t.port.pending = [] ++ .read 0x06 :: [] := ⟨by decide, by decide, _, rfl, by decide, rfl⟩
theorem test_witness_BootedCommandsReadNoFreeValue :
    OperandsHeld .mulw (wideAt 1 2 3 4) ∧ OperandsHeld .s570rfreq (si570At 1 2 3 4 0) ∧
    OperandsHeld .s549fbdiv (si549At 1 2 3 4 0) := by
  unfold OperandsHeld; decide
theorem test_witness_AssemblerLines :
    63 ≤ 63 ∧ 63 < 64 ∧ Reg.presentIn .si570 .s549HsDiv = false ∧ Reg.presentIn .si549 .s549HsDiv = true ∧
    2 ^ 48 - 1 < 2 ^ 48 := by decide
/-- A held register, a changed STATUS and a changed solution, each lost to a reset. -/
theorem test_witness_OnlyResetTakesValuesAway :
    (si570At 0 0 0 0 0).holds .s570N = true ∧
    (nextOf (step { si570At 0 0 0 0 0 with status := 0x05, port := (pendingAt .si570 [.reset]).port })).map
      (fun t => (t.holds .s570N, t.status, t.s570.n)) = some (false, 0x00, .noValue) := by decide
theorem test_witness_StepKeepsTheBlockInvariant :
    BlockInv (si570At 0x03866666 0 4850 5670 0) ∧ ∃ t, step (si570At 0x03866666 0 4850 5670 0) = .next t :=
  ⟨⟨.inl rfl, .inr ⟨⟨rfl, rfl, rfl⟩, by decide, by decide, by decide⟩⟩, _, rfl⟩
theorem test_witness_StepKeepsStorageCanonical :
    StorageCanonical (State.resetFor .si549) ∧ ∃ t, step (State.resetFor .si549) = .next t := by
  refine ⟨?_, _, rfl⟩
  intro r
  cases r <;> decide

end Sys2Proof.Tests
end

section
/-! PROOFS. The register map of R41: which numbers a build maps, which it leaves unmapped. -/

namespace Sys2Proof.Machine

/-- A number is unmapped exactly where no register of the build has it. -/
theorem regAt_eq_none (fam : Family) (n : RegNumber) :
    regAt fam n = none ↔ ∀ r : Reg, r.presentIn fam = true → r.number ≠ n := by
  simp [Option.eq_none_iff_forall_ne_some, regAt_eq_some]

theorem regAt_number_of_present {fam : Family} {r : Reg} (h : r.presentIn fam = true) :
    regAt fam r.number = some r :=
  (regAt_eq_some fam r.number r).2 ⟨h, rfl⟩

/-- The number of a register that the build lacks is unmapped: no other register takes its place. -/
theorem regAt_number_of_absent {fam : Family} {r : Reg} (h : r.presentIn fam = false) :
    regAt fam r.number = none := by
  rw [regAt_eq_none]
  intro r' hpresent hnumber
  obtain rfl := number_injective r' r hnumber
  simp [h] at hpresent

theorem map_regAt_numbers {fam : Family} {rs : List Reg} (h : ∀ r ∈ rs, r.presentIn fam = true) :
    (rs.map Reg.number).map (regAt fam) = rs.map some := by
  rw [List.map_map]
  exact List.map_congr_left fun r hr => regAt_number_of_present (h r hr)

theorem regAt_none_of_mem_numbers {fam : Family} {rs : List Reg} (h : ∀ r ∈ rs, r.presentIn fam = false) :
    ∀ n ∈ rs.map Reg.number, regAt fam n = none :=
  List.forall_mem_map.2 fun r hr => regAt_number_of_absent (h r hr)

/-- The registers of every build, in the order of their numbers (R10). -/
def commonRegs : List Reg :=
  [.cmd, .status, .a, .b, .x, .d, .p, .q, .freq, .xtal, .dcoMin, .dcoMax, .grade]

/-- The registers of an SI570 build alone (R10). -/
def si570Regs : List Reg := [.s570HsDiv, .s570N1, .s570N, .s570Rfreq]

/-- The registers of an SI549 build alone (R10). -/
def si549Regs : List Reg := [.s549HsDiv, .s549LsDiv, .s549FbDiv]

/-- The numbers unmapped in every build (R41). -/
def gapNumbers : List RegNumber :=
  [0x0D, 0x0E, 0x0F, 0x14, 0x15, 0x16, 0x17, 0x1B, 0x1C, 0x1D, 0x1E, 0x1F]

theorem commonRegs_presentIn (fam : Family) : ∀ r ∈ commonRegs, r.presentIn fam = true := by
  simp [commonRegs, Reg.presentIn]

theorem si570Regs_presentIn (fam : Family) : ∀ r ∈ si570Regs, r.presentIn fam = (fam == .si570) := by
  simp [si570Regs, Reg.presentIn]

theorem si549Regs_presentIn (fam : Family) : ∀ r ∈ si549Regs, r.presentIn fam = (fam == .si549) := by
  simp [si549Regs, Reg.presentIn]

theorem number_not_mem_gapNumbers (r : Reg) : r.number ∉ gapNumbers := by
  cases r <;> decide

theorem regAt_gapNumbers (fam : Family) : ∀ n ∈ gapNumbers, regAt fam n = none := by
  intro n hn
  rw [regAt_eq_none]
  rintro r - rfl
  exact number_not_mem_gapNumbers r hn

/-- Settles O37: the mapped numbers are those of the registers present in the build, and the unmapped ones are the
numbers of the other family's registers and those that no register has. -/
theorem registerMap : Obligations.RegisterMap := by
  unfold Obligations.RegisterMap
  refine ⟨fun fam => ?common, ?si570, ?si549, ?gaps, ?noSi570, ?noSi549⟩
  case common => exact map_regAt_numbers (commonRegs_presentIn fam)
  case si570 => exact map_regAt_numbers (si570Regs_presentIn .si570)
  case si549 => exact map_regAt_numbers (si549Regs_presentIn .si549)
  case gaps => exact regAt_gapNumbers
  case noSi570 => exact regAt_none_of_mem_numbers (si570Regs_presentIn .si549)
  case noSi549 => exact regAt_none_of_mem_numbers (si549Regs_presentIn .si570)

end Sys2Proof.Machine
end

section
/-! PROOFS. The command word: the three fields of R61 are its whole content, so the decoder of R64 and the encoder of
R63 undo each other. The rows of the opcode map and the count of legal words follow from that. -/

namespace Sys2Proof

/-! ### The fields of a word -/

/-- The three fields are the whole word (R61). -/
theorem append_fields (w : CommandWord) : (fieldZ w ++ fieldF w) ++ fieldOp w = w := by
  have hhigh : fieldZ w ++ fieldF w = w.extractLsb' 4 12 := BitVec.extractLsb'_append_extractLsb'_eq_extractLsb' rfl
  rw [hhigh]
  exact BitVec.extractLsb'_append_extractLsb' (w := 12) (len := 4)

@[simp] theorem fieldOp_encode (i : Instr) : fieldOp (encode i) = i.opcode :=
  BitVec.extractLsb'_append_eq_right

@[simp] theorem fieldF_encode (i : Instr) : fieldF (encode i) = i.shiftField := by
  rw [fieldF, encode, BitVec.extractLsb'_append_eq_of_le (by decide)]
  exact BitVec.extractLsb'_append_eq_right

@[simp] theorem fieldZ_encode (i : Instr) : fieldZ (encode i) = 0 := by
  rw [fieldZ, encode, BitVec.extractLsb'_append_eq_of_le (by decide)]
  exact BitVec.extractLsb'_append_eq_left

/-- A word is a command's word exactly where its fields are the command's (R61, R63). -/
theorem eq_encode_iff (w : CommandWord) (i : Instr) :
    w = encode i ↔ fieldZ w = 0 ∧ fieldF w = i.shiftField ∧ fieldOp w = i.opcode := by
  constructor
  · rintro rfl
    simp
  · rintro ⟨hZ, hF, hOp⟩
    rw [← append_fields w, hZ, hF, hOp]
    rfl

/-! ### The decoder and the encoder -/

theorem wellFormed_of_anyFamily {fam : Family} {i : Instr} (hany : i.onlyFamily = none) : i.WellFormed fam :=
  .inl hany

theorem wellFormed_iff_of_oneFamily {fam need : Family} {i : Instr} (hone : i.onlyFamily = some need) :
    i.WellFormed fam ↔ fam = need := by
  simp [Instr.WellFormed, hone, eq_comm]

@[simp] theorem instr?_command (i : Instr) : (Decoded.command i).instr? = some i := rfl

@[simp] theorem instr?_illegal (why : IllegalWord) : (Decoded.illegal why).instr? = none := rfl

@[simp] theorem instr?_decodeFor_eq_some (fam need : Family) (i j : Instr) :
    (decodeFor fam need i).instr? = some j ↔ fam = need ∧ i = j := by
  by_cases h : fam = need <;> simp [decodeFor, h]

/-- Each branch of R64 that gives a command has found that command's fields in the word, in a build that has it. -/
theorem fields_of_decode {fam : Family} {w : CommandWord} {i : Instr} (h : decode fam w = some i) :
    (fieldZ w = 0 ∧ fieldF w = i.shiftField ∧ fieldOp w = i.opcode) ∧ i.WellFormed fam := by
  unfold decode decodeCommand at h
  split_ifs at h with hZ h2 hF h1 <;>
    simp only [instr?_command, instr?_illegal, instr?_decodeFor_eq_some, Option.some.injEq, reduceCtorEq] at h
  all_goals rw [not_ne_iff] at hZ
  · subst h
    exact ⟨⟨hZ, rfl, h2⟩, wellFormed_of_anyFamily rfl⟩
  all_goals rw [not_ne_iff] at hF
  · subst h
    exact ⟨⟨hZ, hF, h1⟩, wellFormed_of_anyFamily rfl⟩
  -- the four commands of one family: the opcode test just taken and the family test of `decodeFor`
  all_goals
    obtain ⟨hfam, rfl⟩ := h
    exact ⟨⟨hZ, hF, ‹_›⟩, (wellFormed_iff_of_oneFamily rfl).2 hfam⟩

/-- The word of a command takes that command's branch of R64. -/
theorem decode_encode {fam : Family} {i : Instr} (hwf : i.WellFormed fam) : decode fam (encode i) = some i := by
  unfold decode decodeCommand
  cases i with
  | mulw => rfl
  | divw f => simp [Instr.opcode, Instr.shiftField]
  | s570find | s570rfreq | s549div | s549fbdiv =>
    obtain rfl := (wellFormed_iff_of_oneFamily rfl).1 hwf
    rfl

/-- A word decodes to a command exactly where it is the command's word and the build has the command (R63, R64). -/
theorem decode_eq_some_iff (fam : Family) (w : CommandWord) (i : Instr) :
    decode fam w = some i ↔ w = encode i ∧ i.WellFormed fam := by
  constructor
  · intro h
    obtain ⟨hfields, hwf⟩ := fields_of_decode h
    exact ⟨(eq_encode_iff w i).2 hfields, hwf⟩
  · rintro ⟨rfl, hwf⟩
    exact decode_encode hwf

/-- Settles O1: the word of a command takes that command's branch of the decoder. -/
theorem decodeOfEncode : Obligations.DecodeOfEncode := by
  unfold Obligations.DecodeOfEncode
  exact fun fam i hwf => decode_encode hwf

/-- Settles O2: the fields that the decoder found are the whole word. -/
theorem encodeOfDecode : Obligations.EncodeOfDecode := by
  unfold Obligations.EncodeOfDecode
  intro fam w i h
  obtain ⟨hword, hwf⟩ := (decode_eq_some_iff fam w i).1 h
  exact ⟨hword.symm, hwf⟩

/-! ### The rows of the opcode map -/

theorem wordOnRow (i : Instr) : Laws.WordOnRow.Statement i := by
  cases i with
  | mulw => exact Laws.WordOnRow.mulw
  | divw f => exact Laws.WordOnRow.divw f
  | s570find => exact Laws.WordOnRow.s570find
  | s570rfreq => exact Laws.WordOnRow.s570rfreq
  | s549div => exact Laws.WordOnRow.s549div
  | s549fbdiv => exact Laws.WordOnRow.s549fbdiv

/-- A row whose mask fixes all 16 bits has one word, its command's. -/
theorem on_full_row_iff (w : CommandWord) {i : Instr} (hfull : i.rowMask = BitVec.allOnes 16) :
    w &&& i.rowMask = i.rowMatch ↔ w = encode i := by
  rw [← wordOnRow i, hfull, BitVec.and_allOnes, BitVec.and_allOnes]

/-- The mask of the DIVW row fixes the fields Z and OP. -/
theorem fieldZ_and_divwMask (w : CommandWord) : fieldZ (w &&& 0xFC0F) = fieldZ w := by
  rw [fieldZ, BitVec.extractLsb'_and]
  exact BitVec.and_allOnes

theorem fieldOp_and_divwMask (w : CommandWord) : fieldOp (w &&& 0xFC0F) = fieldOp w := by
  rw [fieldOp, BitVec.extractLsb'_and]
  exact BitVec.and_allOnes

/-- The row of DIVW leaves the shift free: its words are those of the 64 shifts. -/
theorem on_divw_row_iff (w : CommandWord) : w &&& 0xFC0F = 0x0002 ↔ ∃ f, w = encode (.divw f) := by
  constructor
  · intro hrow
    have hZ : fieldZ w = 0 := by rw [← fieldZ_and_divwMask, hrow]; rfl
    have hOp : fieldOp w = 0x2 := by rw [← fieldOp_and_divwMask, hrow]; rfl
    exact ⟨fieldF w, (eq_encode_iff w _).2 ⟨hZ, rfl, hOp⟩⟩
  · rintro ⟨f, rfl⟩
    exact wordOnRow (.divw f)

/-- The row of a command that both builds have, and that has one word. -/
theorem decode_full_row_iff (fam : Family) (w : CommandWord) {i : Instr} (hfull : i.rowMask = BitVec.allOnes 16)
    (hany : i.onlyFamily = none) : decode fam w = some i ↔ w &&& i.rowMask = i.rowMatch := by
  rw [decode_eq_some_iff, on_full_row_iff w hfull, and_iff_left (wellFormed_of_anyFamily hany)]

/-- The row of a command of one family: the row's family condition is the build's family. -/
theorem decode_family_row_iff (fam : Family) (w : CommandWord) {i : Instr} {need : Family}
    (hfull : i.rowMask = BitVec.allOnes 16) (hone : i.onlyFamily = some need) :
    decode fam w = some i ↔ w &&& i.rowMask = i.rowMatch ∧ fam = need := by
  rw [decode_eq_some_iff, on_full_row_iff w hfull, wellFormed_iff_of_oneFamily hone]

theorem decode_divw_row_iff (fam : Family) (w : CommandWord) :
    (∃ f, decode fam w = some (.divw f)) ↔ w &&& 0xFC0F = 0x0002 := by
  rw [on_divw_row_iff]
  refine exists_congr fun f => ?_
  rw [decode_eq_some_iff, and_iff_left (wellFormed_of_anyFamily rfl)]

/-- The word of DIVW f, with the shift moved to bits 9:4. -/
theorem divwWord_eq_encode (f : BitVec 6) : 0x0002 ||| (f.setWidth 16 <<< 4) = encode (.divw f) := by
  have hhigh : (0#6 ++ f).setWidth 16 = f.setWidth 16 :=
    BitVec.eq_of_toNat_eq (by rw [BitVec.toNat_setWidth, BitVec.toNat_append]; simp)
  rw [encode, Instr.shiftField, BitVec.append_def, BitVec.shiftLeftZeroExtend_eq, hhigh, BitVec.or_comm]
  rfl

/-! ### The legal words of a build -/

/-- The 64 shifts of DIVW (R62). -/
def allShifts : List (BitVec 6) := List.ofFn BitVec.ofFin

/-- The commands of a build that have one word each (R63). -/
def oneWordCommands : Family → List Instr
  | .si570 => [.mulw, .s570find, .s570rfreq]
  | .si549 => [.mulw, .s549div, .s549fbdiv]

/-- The commands of a build (R63). -/
def buildCommands (fam : Family) : List Instr := oneWordCommands fam ++ allShifts.map .divw

/-- The words of the commands of a build. -/
def legalWords (fam : Family) : List CommandWord := (buildCommands fam).map encode

theorem mem_allShifts (f : BitVec 6) : f ∈ allShifts :=
  List.mem_ofFn.2 ⟨f.toFin, rfl⟩

theorem nodup_allShifts : allShifts.Nodup :=
  List.nodup_ofFn.2 fun _ _ h => congrArg BitVec.toFin h

theorem mem_buildCommands (fam : Family) (i : Instr) : i ∈ buildCommands fam ↔ i.WellFormed fam := by
  rw [buildCommands, List.mem_append]
  cases i with
  | divw f => exact iff_of_true (.inr (List.mem_map_of_mem (mem_allShifts f))) (wellFormed_of_anyFamily rfl)
  | mulw | s570find | s570rfreq | s549div | s549fbdiv =>
    cases fam <;> simp [oneWordCommands, Instr.WellFormed, Instr.onlyFamily]

theorem nodup_buildCommands (fam : Family) : (buildCommands fam).Nodup := by
  have hone : (oneWordCommands fam).Nodup := by cases fam <;> decide
  have hdivw : (allShifts.map Instr.divw).Nodup := nodup_allShifts.map fun _ _ h => Instr.divw.inj h
  refine hone.append hdivw ?_
  cases fam <;> simp [oneWordCommands, List.Disjoint]

theorem length_legalWords (fam : Family) : (legalWords fam).length = 67 := by
  cases fam <;> simp [legalWords, buildCommands, oneWordCommands, allShifts]

/-- Two commands of one build have different words, since a word decodes to one command. -/
theorem nodup_legalWords (fam : Family) : (legalWords fam).Nodup := by
  refine List.Nodup.map_on ?_ (nodup_buildCommands fam)
  intro i hi j hj hword
  have hi := decode_encode ((mem_buildCommands fam i).1 hi)
  have hj := decode_encode ((mem_buildCommands fam j).1 hj)
  exact Option.some.inj (hi.symm.trans (hword ▸ hj))

theorem mem_legalWords (fam : Family) (w : CommandWord) : w ∈ legalWords fam ↔ (decode fam w).isSome = true := by
  simp only [legalWords, List.mem_map, mem_buildCommands, Option.isSome_iff_exists, decode_eq_some_iff]
  exact exists_congr fun i => and_comm.trans (and_congr_left' eq_comm)

/-- Settles O3: each row holds its commands' words, and the legal words are those of the list of a build's commands. -/
theorem decoderFollowsTheOpcodeMap : Obligations.DecoderFollowsTheOpcodeMap := by
  unfold Obligations.DecoderFollowsTheOpcodeMap
  intro fam
  refine ⟨fun w => ⟨?mulw, ?divw, ?s570find, ?s570rfreq, ?s549div, ?s549fbdiv⟩, ?shifts, ?legal⟩
  case mulw => exact decode_full_row_iff fam w rfl rfl
  case divw => exact decode_divw_row_iff fam w
  case s570find => exact decode_family_row_iff fam w rfl rfl
  case s570rfreq => exact decode_family_row_iff fam w rfl rfl
  case s549div => exact decode_family_row_iff fam w rfl rfl
  case s549fbdiv => exact decode_family_row_iff fam w rfl rfl
  case shifts =>
    intro f
    rw [divwWord_eq_encode]
    exact decode_encode (wellFormed_of_anyFamily rfl)
  case legal => exact ⟨legalWords fam, nodup_legalWords fam, length_legalWords fam, mem_legalWords fam⟩

end Sys2Proof
end

section
/-! PROOFS. The tests of R87: what the total divide gives inside the domain of R82, and that the product of a number
and 1, divided by that number, lies in the domain. -/

namespace Sys2Proof.Machine

/-- Inside the domain the total divide is the divide of R82. -/
theorem divwTotal_toNat {x : BitVec 48} {d : BitVec 32} {f : BitVec 6} (hdom : DivwDomain x d f) :
    (divwTotal x d f).toNat = wideQuotient x d f := by
  obtain ⟨-, hquot⟩ | ⟨hout, -⟩ := divwTotal_cases x d f
  · exact hquot
  · exact absurd hdom hout

theorem wideQuotient_mulw_one_self {a : BitVec 32} (ha : a ≠ 0) : wideQuotient (mulw a 1) a 0 = 1 := by
  have hpos : 0 < a.toNat := Nat.pos_of_ne_zero (BitVec.toNat_ne_iff_ne.2 ha)
  calc wideQuotient (mulw a 1) a 0
      = a.toNat * 1 * 2 ^ 0 / a.toNat := by rw [wideQuotient, mulw_toNat]; rfl
    _ = a.toNat / a.toNat := by rw [mul_one, pow_zero, mul_one]
    _ = 1 := Nat.div_self hpos

theorem divwDomain_mulw_one_self {a : BitVec 32} (ha : a ≠ 0) : DivwDomain (mulw a 1) a 0 :=
  ⟨ha, by rw [wideQuotient_mulw_one_self ha]; decide⟩

/-- Settles O14: both tests lie in the domain, where the total divide is the floor quotient. -/
theorem divideInvertsMultiply : Obligations.DivideInvertsMultiply := by
  unfold Obligations.DivideInvertsMultiply
  refine ⟨fun a ha => ?_, fun x d f hd hfits => divwTotal_toNat ⟨hd, hfits⟩⟩
  apply BitVec.eq_of_toNat_eq
  rw [divwTotal_toNat (divwDomain_mulw_one_self ha), wideQuotient_mulw_one_self ha]
  rfl

end Sys2Proof.Machine
end

section
/-! PROOFS. The candidate of R102: the ceiling of DCOMIN over one step of the DCO, rounded up to a legal N1, is the least
legal N1 whose DCO reaches DCOMIN. -/

namespace Sys2Proof.Machine

/-- The numbers among which R102 takes the least: 1 or even, with the DCO of the pair at or above DCOMIN. -/
def reachingN1s (freq : BitVec 32) (dcoMin : BitVec 16) (hs : Nat) : Set Nat :=
  {m | 1 ≤ m ∧ (m = 1 ∨ m % 2 = 0) ∧ mhz dcoMin ≤ freq.toNat * m * hs}

theorem cand_freq_zero (dcoMin : BitVec 16) (hs : Nat) : cand 0 dcoMin hs = none := rfl

theorem cand_of_freq_ne_zero {freq : BitVec 32} (hfreq : freq ≠ 0) (dcoMin : BitVec 16) (hs : Nat) :
    cand freq dcoMin hs = some (roundN1 (max 1 (ceilDiv (mhz dcoMin) (freq.toNat * hs)))) :=
  if_neg hfreq

theorem legalHsDiv_pos {hs : Nat} (hhs : Config.LegalHsDiv hs) : 0 < hs := by
  unfold Config.LegalHsDiv at hhs
  omega

/-- The ceiling in R102 bounds N1 from below exactly as DCOMIN bounds the DCO. -/
theorem ceilDiv_mhz_le_iff {freq : BitVec 32} (hfreq : freq ≠ 0) {hs : Nat} (hhs : 0 < hs) (dcoMin : BitVec 16) (n : Nat) :
    ceilDiv (mhz dcoMin) (freq.toNat * hs) ≤ n ↔ mhz dcoMin ≤ freq.toNat * n * hs := by
  have hpos : 0 < freq.toNat := Nat.pos_of_ne_zero (BitVec.toNat_ne_iff_ne.2 hfreq)
  rw [ceilDiv_le_iff _ _ _ (Nat.mul_pos hpos hhs), Nat.mul_left_comm, ← Nat.mul_assoc]

/-- R102: the candidate exists for a target that is not 0, and is the least legal N1 whose DCO reaches DCOMIN. -/
theorem cand_isLeast {freq : BitVec 32} (hfreq : freq ≠ 0) {hs : Nat} (hhs : 0 < hs) (dcoMin : BitVec 16) :
    ∃ n, cand freq dcoMin hs = some n ∧ IsLeast (reachingN1s freq dcoMin hs) n := by
  refine ⟨_, cand_of_freq_ne_zero hfreq dcoMin hs, ?_⟩
  obtain ⟨hge, hlegal, hleast⟩ := roundN1_spec _ (le_max_left 1 (ceilDiv (mhz dcoMin) (freq.toNat * hs)))
  obtain ⟨hone, hceil⟩ := max_le_iff.1 hge
  refine ⟨⟨hone, hlegal, (ceilDiv_mhz_le_iff hfreq hhs dcoMin _).1 hceil⟩, ?_⟩
  rintro m ⟨hm, hmlegal, hreach⟩
  exact hleast m (max_le hm ((ceilDiv_mhz_le_iff hfreq hhs dcoMin m).2 hreach)) hmlegal

/-- With no lower limit, 1 already reaches DCOMIN. -/
theorem one_mem_reachingN1s_zero (freq : BitVec 32) (hs : Nat) : 1 ∈ reachingN1s freq 0 hs :=
  ⟨le_rfl, .inl rfl, by simp [mhz]⟩

/-- Settles O18: the candidate is the least element of `reachingN1s`, to which 1 belongs where DCOMIN is 0. -/
theorem candidateIsTheLeastLegalN1 : Obligations.CandidateIsTheLeastLegalN1 := by
  unfold Obligations.CandidateIsTheLeastLegalN1
  intro freq dcoMin hs hhs
  constructor
  · rintro rfl
    exact cand_freq_zero dcoMin hs
  · intro hfreq
    obtain ⟨n, hcand, ⟨hone, hlegal, hreach⟩, hleast⟩ := cand_isLeast hfreq (legalHsDiv_pos hhs) dcoMin
    refine ⟨n, hcand, hone, hlegal, hreach, fun m hm hmlegal hmreach => hleast ⟨hm, hmlegal, hmreach⟩, ?_⟩
    rintro rfl
    exact le_antisymm (hleast (one_mem_reachingN1s_zero freq hs)) hone

end Sys2Proof.Machine
end

section
/-! PROOFS. Illegal commands: a write to CMD runs the word that it carries, and a word that encodes no command of the
build leaves a STATUS whose fields are ILL alone (R142). -/

namespace Sys2Proof.Machine

/-! ### The fields of a STATUS word (R12) -/

@[simp] theorem statusFail_statusWord (fail ill : Bool) (cause : BitVec 2) :
    statusFail (statusWord fail ill cause) = fail := by
  rw [statusFail, statusWord, BitVec.getLsbD_append]
  simp

@[simp] theorem statusIll_statusWord (fail ill : Bool) (cause : BitVec 2) :
    statusIll (statusWord fail ill cause) = ill := by
  rw [statusIll, statusWord, BitVec.getLsbD_append, BitVec.getLsbD_append]
  simp

@[simp] theorem statusCause_statusWord (fail ill : Bool) (cause : BitVec 2) :
    statusCause (statusWord fail ill cause) = cause := by
  rw [statusCause, statusWord, BitVec.extractLsb'_append_eq_of_le (by decide),
    BitVec.extractLsb'_append_eq_of_le (by decide)]
  exact BitVec.extractLsb'_append_eq_right

/-! ### Writes to CMD -/

/-- A write to number 0 runs the command word in data bits 15:0 (R46, R60). -/
theorem perform_write_cmd (data : PortData) (s : State) :
    perform (.write 0x00 data) s = runCommandWord (data.setWidth 16) s := by
  simp [perform, portWrite, commandWordOf]

theorem runCommandWord_of_decode_eq_none {w : CommandWord} {s : State} (hillegal : decode s.family w = none) :
    runCommandWord w s = .next s.illegalCommand := by
  obtain ⟨i, hcommand, -⟩ | ⟨-, hrun⟩ := runCommandWord_cases w s
  · simp [hillegal] at hcommand
  · exact hrun

theorem illegalCommand_eq (s : State) : s.illegalCommand = { s with status := 0x02 } := by
  rw [State.illegalCommand, statusIllegal_eq]
  rfl

/-- Settles O33: the write runs a word that decodes to nothing, and the STATUS it leaves is built from ILL alone. -/
theorem illegalIsNotAFailure : Obligations.IllegalIsNotAFailure := by
  unfold Obligations.IllegalIsNotAFailure
  intro data s hillegal
  refine ⟨s.illegalCommand, ?outcome, illegalCommand_eq s, ?fail, ?ill, ?cause⟩
  case outcome => rw [perform_write_cmd, runCommandWord_of_decode_eq_none hillegal]
  case fail => exact statusFail_statusWord false true 0
  case ill => exact statusIll_statusWord false true 0
  case cause => exact statusCause_statusWord false true 0

end Sys2Proof.Machine
end

section
/-! PROOFS. The search of R104: trying the HS_DIV values from the largest down and replacing the best only by a strictly
smaller product keeps a valid pair that none of those tried beats. -/

namespace Sys2Proof.Machine

/-! ### One turn of the search -/

theorem keepBetter_of_no_candidate {o : FindOperands} {hs : Nat} (h : validCand o hs = none) (best : Option Solution) :
    keepBetter o best hs = best := by
  simp [keepBetter, h]

theorem keepBetter_first {o : FindOperands} {hs : Nat} {c : Solution} (h : validCand o hs = some c) :
    keepBetter o none hs = some c := by
  simp [keepBetter, h]

theorem keepBetter_candidate {o : FindOperands} {hs : Nat} {c : Solution} (h : validCand o hs = some c) (b : Solution) :
    keepBetter o (some b) hs = if c.product < b.product then some c else some b := by
  simp [keepBetter, h]

theorem hsDiv_of_validCand {o : FindOperands} {hs : Nat} {c : Solution} (h : validCand o hs = some c) : c.hsDiv = hs :=
  ((validCand_eq_some o hs c).1 h).1

/-- The order of R104: a smaller product, or the same product and no smaller HS_DIV. -/
def Solution.NoWorse (b c : Solution) : Prop :=
  b.product < c.product ∨ (b.product = c.product ∧ c.hsDiv ≤ b.hsDiv)

/-- What the search has after trying the HS_DIV values `tried`: a valid candidate that none of theirs beats, or nothing
where none of them has one. -/
def BestOf (o : FindOperands) (tried : List Nat) : Option Solution → Prop
  | none => ∀ hs ∈ tried, validCand o hs = none
  | some b => b.hsDiv ∈ tried ∧ validCand o b.hsDiv = some b ∧
      ∀ hs ∈ tried, ∀ c, validCand o hs = some c → b.NoWorse c

theorem bestOf_append_of_no_candidate {o : FindOperands} {tried : List Nat} {best : Option Solution} {hs : Nat}
    (hbest : BestOf o tried best) (hnone : validCand o hs = none) : BestOf o (tried ++ [hs]) best := by
  cases best with
  | none =>
    intro hs' hmem
    obtain hmem | hmem := List.mem_append.1 hmem
    · exact hbest hs' hmem
    · rwa [List.mem_singleton.1 hmem]
  | some b =>
    obtain ⟨htried, hvalid, hbeats⟩ := hbest
    refine ⟨List.mem_append_left _ htried, hvalid, fun hs' hmem c hc => ?_⟩
    obtain hmem | hmem := List.mem_append.1 hmem
    · exact hbeats hs' hmem c hc
    · rw [List.mem_singleton.1 hmem, hnone] at hc
      cases hc

/-- The candidate of a new HS_DIV value becomes the best where it beats all those before it. -/
theorem bestOf_append_candidate {o : FindOperands} {tried : List Nat} {hs : Nat} {c : Solution}
    (hc : validCand o hs = some c) (hbeats : ∀ hs' ∈ tried, ∀ c', validCand o hs' = some c' → c.NoWorse c') :
    BestOf o (tried ++ [hs]) (some c) := by
  have hhs := hsDiv_of_validCand hc
  refine ⟨by simp [hhs], by rwa [hhs], fun hs' hmem c' hc' => ?_⟩
  obtain hmem | hmem := List.mem_append.1 hmem
  · exact hbeats hs' hmem c' hc'
  · rw [List.mem_singleton.1 hmem, hc] at hc'
    obtain rfl := Option.some.inj hc'
    exact .inr ⟨rfl, le_rfl⟩

theorem bestOf_append_of_not_beaten {o : FindOperands} {tried : List Nat} {hs : Nat} {b c : Solution}
    (hbest : BestOf o tried (some b)) (hc : validCand o hs = some c) (hnoWorse : b.NoWorse c) :
    BestOf o (tried ++ [hs]) (some b) := by
  obtain ⟨htried, hvalid, hbeats⟩ := hbest
  refine ⟨List.mem_append_left _ htried, hvalid, fun hs' hmem c' hc' => ?_⟩
  obtain hmem | hmem := List.mem_append.1 hmem
  · exact hbeats hs' hmem c' hc'
  · rw [List.mem_singleton.1 hmem, hc] at hc'
    obtain rfl := Option.some.inj hc'
    exact hnoWorse

/-- One turn with an HS_DIV value smaller than all before it: on a tie the earlier, larger one stays. -/
theorem bestOf_keepBetter {o : FindOperands} {tried : List Nat} {best : Option Solution} {hs : Nat}
    (hbest : BestOf o tried best) (hless : ∀ hs' ∈ tried, hs < hs') :
    BestOf o (tried ++ [hs]) (keepBetter o best hs) := by
  cases hc : validCand o hs with
  | none =>
    rw [keepBetter_of_no_candidate hc]
    exact bestOf_append_of_no_candidate hbest hc
  | some c =>
    cases best with
    | none =>
      rw [keepBetter_first hc]
      refine bestOf_append_candidate hc fun hs' hmem c' hc' => ?_
      rw [hbest hs' hmem] at hc'
      cases hc'
    | some b =>
      obtain ⟨htried, -, hbeats⟩ := id hbest
      rw [keepBetter_candidate hc]
      split
      case isTrue hsmaller =>
        refine bestOf_append_candidate hc fun hs' hmem c' hc' => ?_
        have hb := hbeats hs' hmem c' hc'
        unfold Solution.NoWorse at hb ⊢
        omega
      case isFalse hkeep =>
        refine bestOf_append_of_not_beaten hbest hc ?_
        have htie : c.hsDiv < b.hsDiv := hsDiv_of_validCand hc ▸ hless _ htried
        unfold Solution.NoWorse
        omega

theorem bestOf_foldl_keepBetter {o : FindOperands} (rest : List Nat) {tried : List Nat} {best : Option Solution}
    (hbest : BestOf o tried best) (hdesc : (tried ++ rest).Pairwise (· > ·)) :
    BestOf o (tried ++ rest) (rest.foldl (keepBetter o) best) := by
  induction rest generalizing tried best with
  | nil => simpa using hbest
  | cons hs rest ih =>
    obtain ⟨-, -, hgt⟩ := List.pairwise_append.1 hdesc
    have hless : ∀ hs' ∈ tried, hs < hs' := fun hs' hmem => hgt hs' hmem hs List.mem_cons_self
    rw [List.append_cons] at hdesc ⊢
    exact ih (bestOf_keepBetter hbest hless) hdesc

theorem findDivider_bestOf (o : FindOperands) : BestOf o hsDivOrder (findDivider o) :=
  bestOf_foldl_keepBetter hsDivOrder (tried := []) (fun _ h => absurd h List.not_mem_nil) (by decide)

/-! ### The search over the valid pairs of R103 -/

theorem mem_hsDivOrder (hs : Nat) : hs ∈ hsDivOrder ↔ Config.LegalHsDiv hs := by
  simp [hsDivOrder, Config.LegalHsDiv]

/-- A valid pair is the valid candidate of its HS_DIV value. -/
theorem validPair_iff (o : FindOperands) (hs n : Nat) :
    ValidPair o hs n ↔ hs ∈ hsDivOrder ∧ validCand o hs = some { n1 := n, hsDiv := hs } := by
  simp [ValidPair, validCand_eq_some, candidateOk_iff, mem_hsDivOrder, mhz]

theorem findDivider_eq_none_iff (o : FindOperands) : findDivider o = none ↔ ∀ hs n, ¬ ValidPair o hs n := by
  have hbest := findDivider_bestOf o
  cases h : findDivider o with
  | none =>
    rw [h] at hbest
    refine iff_of_true rfl fun hs n hvalid => ?_
    obtain ⟨hmem, hc⟩ := (validPair_iff o hs n).1 hvalid
    rw [hbest hs hmem] at hc
    cases hc
  | some b =>
    rw [h] at hbest
    obtain ⟨htried, hvalid, -⟩ := hbest
    exact iff_of_false nofun fun hnone => hnone _ _ ((validPair_iff o b.hsDiv b.n1).2 ⟨htried, hvalid⟩)

theorem findDivider_isSome_of_validPair {o : FindOperands} {hs n : Nat} (hvalid : ValidPair o hs n) :
    ∃ sol, findDivider o = some sol :=
  Option.ne_none_iff_exists'.1 fun hnone => (findDivider_eq_none_iff o).1 hnone hs n hvalid

theorem validPair_of_findDivider {o : FindOperands} {sol : Solution} (h : findDivider o = some sol) :
    ValidPair o sol.hsDiv sol.n1 := by
  have hbest := findDivider_bestOf o
  rw [h] at hbest
  obtain ⟨htried, hvalid, -⟩ := hbest
  exact (validPair_iff o sol.hsDiv sol.n1).2 ⟨htried, hvalid⟩

theorem noWorse_of_findDivider {o : FindOperands} {sol : Solution} (h : findDivider o = some sol) {hs n : Nat}
    (hvalid : ValidPair o hs n) : sol.NoWorse { n1 := n, hsDiv := hs } := by
  have hbest := findDivider_bestOf o
  rw [h] at hbest
  obtain ⟨-, -, hbeats⟩ := hbest
  obtain ⟨hmem, hc⟩ := (validPair_iff o hs n).1 hvalid
  exact hbeats hs hmem _ hc

/-! ### The bounds of a valid pair -/

theorem freq_ne_zero_of_validPair {o : FindOperands} {hs n : Nat} (h : ValidPair o hs n) : o.freq ≠ 0 := by
  obtain ⟨-, hcand, -⟩ := h
  intro hzero
  rw [hzero, cand_freq_zero] at hcand
  cases hcand

theorem reaches_of_validPair {o : FindOperands} {hs n : Nat} (h : ValidPair o hs n) :
    n ∈ reachingN1s o.freq o.dcoMin hs := by
  have hfreq := freq_ne_zero_of_validPair h
  obtain ⟨hhs, hcand, -⟩ := h
  obtain ⟨m, hcand', hleast⟩ := cand_isLeast hfreq (legalHsDiv_pos hhs) o.dcoMin
  obtain rfl : n = m := Option.some.inj (hcand.symm.trans hcand')
  exact hleast.1

theorem legalN1_of_validPair {o : FindOperands} {hs n : Nat} (h : ValidPair o hs n) : Config.LegalN1 n := by
  obtain ⟨hone, hlegal, -⟩ := reaches_of_validPair h
  obtain ⟨-, -, hle, -⟩ := h
  unfold Config.LegalN1
  omega

theorem legalHsDiv_bounds {hs : Nat} (h : Config.LegalHsDiv hs) : 4 ≤ hs ∧ hs ≤ 11 := by
  unfold Config.LegalHsDiv at h
  omega

theorem legalN1_bounds {n : Nat} (h : Config.LegalN1 n) : 1 ≤ n ∧ n ≤ 128 := by
  unfold Config.LegalN1 at h
  omega

/-- The divider product lies between those of (1, 4) and (128, 11) (R106). -/
theorem legal_product_bounds {hs n : Nat} (hhs : Config.LegalHsDiv hs) (hn : Config.LegalN1 n) :
    4 ≤ n * hs ∧ n * hs ≤ 1408 := by
  obtain ⟨hhs4, hhs11⟩ := legalHsDiv_bounds hhs
  obtain ⟨hn1, hn128⟩ := legalN1_bounds hn
  exact ⟨Nat.mul_le_mul hn1 hhs4, Nat.mul_le_mul hn128 hhs11⟩

end Sys2Proof.Machine
end

section
/-! PROOFS. What a command can do, said once: it succeeds and writes its results, or it fails and writes STATUS alone;
and what the three outcomes of a write to CMD are. The two invariants of a state are read off these cases. -/

namespace Sys2Proof.Machine

/-! ### The outcomes of a command -/

/-- `s` with the pair N1 = `n`, HS_DIV = `hs` and its product as the cached solution. -/
def State.writePair (s : State) (hs n : Nat) : State :=
  s.writeSolution (BitVec.ofNat 4 hs) (BitVec.ofNat 8 n) (BitVec.ofNat 16 (n * hs))

@[simp] theorem writePair_s570 (s : State) (hs n : Nat) : (s.writePair hs n).s570 =
    { s.s570 with hsDiv := .holding (BitVec.ofNat 4 hs), n1 := .holding (BitVec.ofNat 8 n),
                  n := .holding (BitVec.ofNat 16 (n * hs)) } := rfl

/-- The command succeeds in `s`, and the state is `s` with its results written (R81, R83, R104, R105, R120, R125). -/
inductive Succeeds (s : State) : Instr → State → Prop where
  | mulw : Succeeds s .mulw (s.writeP (mulw s.opA s.opB))
  | divw (f : BitVec 6) : Succeeds s (.divw f) (s.writeQ (divwTotal s.opX s.opD f))
  | s570find (sol : Solution) (hfound : findDivider s.findOperands = some sol) :
    Succeeds s .s570find (s.writePair sol.hsDiv sol.n1)
  | s570rfreq (hlow : (mulw s.opFreq s.opS570N).toNat ≤ mhz s.opDcoMax) :
    Succeeds s .s570rfreq (s.writeRfreq ((divwTotal (mulw s.opFreq s.opS570N) s.opXtal 31#6).setWidth 38))
  | s549div :
    Succeeds s .s549div
      (s.writeS549Dividers (s549Dividers s.opFreq s.opDcoMin).1 (s549Dividers s.opFreq s.opDcoMin).2)
  | s549fbdiv : Succeeds s .s549fbdiv (s.writeFbDiv (fbdivValue s.opFreq s.opXtal s.opHsDiv s.opLsDiv))

/-- The command fails in `s` with the cause (R104, R105, R141). -/
inductive Fails (s : State) : Instr → Cause → Prop where
  | noDiv (hnone : findDivider s.findOperands = none) : Fails s .s570find .noDiv
  | dcoHi (hhigh : (mulw s.opFreq s.opS570N).toNat > mhz s.opDcoMax) : Fails s .s570rfreq .dcoHi

/-- A command of the build succeeds or fails; there is no third outcome. -/
theorem exec_cases {i : Instr} {s : State} (hwf : i.WellFormed s.family) :
    (∃ t, Succeeds s i t ∧ exec i s = .next t.complete) ∨ (∃ c, Fails s i c ∧ exec i s = .next (s.raiseFail c)) := by
  cases i with
  | mulw => exact .inl ⟨_, .mulw, exec_mulw s⟩
  | divw f => exact .inl ⟨_, .divw f, exec_divw f s⟩
  | s570find =>
    rw [exec_s570find s ((wellFormed_iff_of_oneFamily rfl).1 hwf)]
    obtain ⟨hnone, hrun⟩ | ⟨sol, hfound, hrun⟩ := runFind_cases s
    · exact .inr ⟨_, .noDiv hnone, congrArg _ hrun⟩
    · exact .inl ⟨_, .s570find sol hfound, congrArg _ hrun⟩
  | s570rfreq =>
    rw [exec_s570rfreq s ((wellFormed_iff_of_oneFamily rfl).1 hwf)]
    obtain ⟨hhigh, hrun⟩ | ⟨hlow, hrun⟩ := runRfreq_cases s
    · exact .inr ⟨_, .dcoHi hhigh, congrArg _ hrun⟩
    · exact .inl ⟨_, .s570rfreq hlow, congrArg _ hrun⟩
  | s549div =>
    exact .inl ⟨_, .s549div, exec_s549div s ((wellFormed_iff_of_oneFamily rfl).1 hwf)⟩
  | s549fbdiv =>
    exact .inl ⟨_, .s549fbdiv, exec_s549fbdiv s ((wellFormed_iff_of_oneFamily rfl).1 hwf)⟩

/-- Given a command that the build lacks, `exec` has the effect of an illegal word (R66, log 10). -/
theorem exec_of_not_wellFormed {i : Instr} {s : State} (h : ¬ i.WellFormed s.family) :
    exec i s = .next s.illegalCommand := by
  cases i with
  | mulw | divw f => exact absurd (wellFormed_of_anyFamily rfl) h
  | s570find | s570rfreq | s549div | s549fbdiv =>
    rw [wellFormed_iff_of_oneFamily rfl] at h
    exact congrArg Host.Outcome.next (if_neg h)

/-- What `t` can be after the word `w` is written to CMD in state `s` (R46, R65, R141). -/
inductive CommandRun (w : CommandWord) (s : State) : State → Prop where
  | succeeded (i : Instr) (t : State) (hdecode : decode s.family w = some i) (hsucceeds : Succeeds s i t) :
    CommandRun w s t.complete
  | failed (i : Instr) (c : Cause) (hdecode : decode s.family w = some i) (hfails : Fails s i c) :
    CommandRun w s (s.raiseFail c)
  | illegal (hillegal : decode s.family w = none) : CommandRun w s s.illegalCommand

theorem wellFormed_of_decode {fam : Family} {w : CommandWord} {i : Instr} (h : decode fam w = some i) :
    i.WellFormed fam :=
  ((decode_eq_some_iff fam w i).1 h).2

/-- Every write to CMD completes, in one of the three ways. -/
theorem runCommandWord_completes (w : CommandWord) (s : State) :
    ∃ t, runCommandWord w s = .next t ∧ CommandRun w s t := by
  obtain ⟨i, hdecode, hrun⟩ | ⟨hillegal, hrun⟩ := runCommandWord_cases w s
  · rw [hrun]
    obtain ⟨t, hsucceeds, hexec⟩ | ⟨c, hfails, hexec⟩ := exec_cases (wellFormed_of_decode hdecode)
    · exact ⟨_, hexec, .succeeded i t hdecode hsucceeds⟩
    · exact ⟨_, hexec, .failed i c hdecode hfails⟩
  · exact ⟨_, hrun, .illegal hillegal⟩

/-! ### What a successful command leaves unchanged -/

theorem succeeds_family {i : Instr} {s t : State} (h : Succeeds s i t) : t.family = s.family := by
  cases h <;> rfl

theorem succeeds_port {i : Instr} {s t : State} (h : Succeeds s i t) : t.port = s.port := by
  cases h <;> rfl

theorem commandRun_family {w : CommandWord} {s t : State} (h : CommandRun w s t) : t.family = s.family := by
  cases h with
  | succeeded i t _ hsucceeds => exact (complete_family t).trans (succeeds_family hsucceeds)
  | failed | illegal => rfl

theorem commandRun_port {w : CommandWord} {s t : State} (h : CommandRun w s t) : t.port = s.port := by
  cases h with
  | succeeded i t _ hsucceeds => exact (complete_port t).trans (succeeds_port hsucceeds)
  | failed | illegal => rfl

/-! ### The outcomes of a step -/

/-- What `t` can be after the host's event `e` is performed in state `s` (R43, R44, R46, R160). -/
inductive EventRun (s : State) : HostEvent → State → Prop where
  | command (data : PortData) (t : State) (hrun : CommandRun (data.setWidth 16) s t) : EventRun s (.write 0x00 data) t
  | registerWrite (n : RegNumber) (data : PortData) (r : Reg) (hreg : regAt s.family n = some r)
    (hrw : r.access = .rw) : EventRun s (.write n data) (s.hostWrite r data)
  | ignoredWrite (n : RegNumber) (data : PortData) : EventRun s (.write n data) s
  | read (n : RegNumber) : EventRun s (.read n) (s.returnData (s.portData n))
  | reset : EventRun s .reset s.blockReset

theorem perform_registerWrite {s : State} {n : RegNumber} {r : Reg} (hreg : regAt s.family n = some r)
    (hcmd : r ≠ .cmd) (data : PortData) : perform (.write n data) s = .next (s.hostWrite r data) := by
  have hn : n ≠ 0 := by
    rintro rfl
    exact hcmd (Option.some.inj (hreg.symm.trans (regAt_cmd s.family)))
  obtain ⟨hzero, -⟩ | ⟨r', -, hreg', hwrite⟩ | ⟨hnone, -⟩ := portWrite_cases n data s
  · exact absurd hzero hn
  · obtain rfl := Option.some.inj (hreg.symm.trans hreg')
    exact hwrite
  · rw [hreg] at hnone
    cases hnone

theorem perform_write_unmapped {s : State} {n : RegNumber} (hnone : regAt s.family n = none) (data : PortData) :
    perform (.write n data) s = .next s := by
  simp [perform, portWrite, hnone]

/-- A write to a register that is neither RW nor CMD is ignored (R43). -/
theorem perform_write_readOnly {s : State} {n : RegNumber} {r : Reg} (hreg : regAt s.family n = some r)
    (hro : r.access = .ro) (data : PortData) : perform (.write n data) s = .next s := by
  have hcmd : r ≠ .cmd := by rintro rfl; cases hro
  rw [perform_registerWrite hreg hcmd, hostWrite_of_not_rw s r data (by rw [hro]; decide)]

theorem access_rw_or_ro {r : Reg} (hcmd : r ≠ .cmd) : r.access = .rw ∨ r.access = .ro := by
  cases r with
  | cmd => exact absurd rfl hcmd
  | a | b | x | d | freq | xtal | dcoMin | dcoMax | grade => exact .inl rfl
  | _ => exact .inr rfl

/-- Every host event completes. -/
theorem perform_completes (e : HostEvent) (s : State) : ∃ t, perform e s = .next t ∧ EventRun s e t := by
  cases e with
  | read n => exact ⟨_, rfl, .read n⟩
  | reset => exact ⟨_, rfl, .reset⟩
  | write n data =>
    cases hreg : regAt s.family n with
    | none => exact ⟨s, perform_write_unmapped hreg data, .ignoredWrite n data⟩
    | some r =>
      by_cases hcmd : r = .cmd
      · subst hcmd
        obtain ⟨-, rfl⟩ := (regAt_eq_some _ _ _).1 hreg
        obtain ⟨t, hnext, hrun⟩ := runCommandWord_completes (data.setWidth 16) s
        exact ⟨t, (perform_write_cmd data s).trans hnext, .command data t hrun⟩
      · obtain hrw | hro := access_rw_or_ro hcmd
        · exact ⟨_, perform_registerWrite hreg hcmd data, .registerWrite n data r hreg hrw⟩
        · exact ⟨s, perform_write_readOnly hreg hro data, .ignoredWrite n data⟩

/-- A step idles, or performs the next event in the state in which it is issued. -/
theorem step_cases {s t : State} (h : step s = .next t) :
    (s.port.pending = [] ∧ t = s) ∨ (∃ e rest, s.port.pending = e :: rest ∧ EventRun (s.issue rest) e t) := by
  cases hpending : s.port.pending with
  | nil =>
    rw [step_idle s hpending] at h
    exact .inl ⟨rfl, (Host.Outcome.next.inj h).symm⟩
  | cons e rest =>
    rw [step_pending s e rest hpending] at h
    obtain ⟨t', hperform, hrun⟩ := perform_completes e (s.issue rest)
    obtain rfl := Host.Outcome.next.inj (h.symm.trans hperform)
    exact .inr ⟨e, rest, rfl, hrun⟩

/-! ### The invariant of R12 and R31 -/

/-- `BlockInv` reads STATUS and the cached solution alone. -/
theorem blockInv_of_same {s t : State} (hinv : BlockInv s) (hstatus : t.status = s.status) (hsol : t.s570 = s.s570) :
    BlockInv t := by
  obtain ⟨hlegal, hsolution⟩ := hinv
  exact ⟨by rwa [StatusLegal, hstatus], by rwa [SolutionLegal, hsol]⟩

theorem solutionLegal_of_same {s t : State} (hlegal : SolutionLegal s) (hhs : t.s570.hsDiv = s.s570.hsDiv)
    (hn1 : t.s570.n1 = s.s570.n1) (hn : t.s570.n = s.s570.n) : SolutionLegal t := by
  rwa [SolutionLegal, hhs, hn1, hn]

theorem solutionLegal_blockReset (s : State) : SolutionLegal s.blockReset := .inl ⟨rfl, rfl, rfl⟩

/-- The three result registers hold a valid pair and its product whole (R24 to R26). -/
theorem writePair_toNat (s : State) {o : FindOperands} {hs n : Nat} (h : ValidPair o hs n) :
    (s.writePair hs n).s570.hsDiv.word.toNat = hs ∧ (s.writePair hs n).s570.n1.word.toNat = n ∧
      (s.writePair hs n).s570.n.word.toNat = n * hs := by
  have hn1 := legalN1_of_validPair h
  obtain ⟨hhs, -⟩ := h
  have hhsBounds := legalHsDiv_bounds hhs
  have hn1Bounds := legalN1_bounds hn1
  have hnBounds := legal_product_bounds hhs hn1
  simp only [writePair_s570, holding_word, BitVec.toNat_ofNat]
  exact ⟨Nat.mod_eq_of_lt (by omega), Nat.mod_eq_of_lt (by omega), Nat.mod_eq_of_lt (by omega)⟩

theorem solutionLegal_writePair (s : State) {o : FindOperands} {hs n : Nat} (h : ValidPair o hs n) :
    SolutionLegal (s.writePair hs n) := by
  obtain ⟨hhs, hn1, hn⟩ := writePair_toNat s h
  refine .inr ⟨⟨rfl, rfl, rfl⟩, ?_⟩
  rw [hhs, hn1, hn]
  obtain ⟨hlegal, -⟩ := id h
  exact ⟨hlegal, legalN1_of_validPair h, rfl⟩

/-- Only S570FIND writes the cached solution, and what it writes is a valid pair. -/
theorem solutionLegal_of_succeeds {i : Instr} {s t : State} (hlegal : SolutionLegal s) (h : Succeeds s i t) :
    SolutionLegal t := by
  cases h with
  | s570find sol hfound => exact solutionLegal_writePair s (validPair_of_findDivider hfound)
  | mulw | divw | s570rfreq | s549div | s549fbdiv => exact solutionLegal_of_same hlegal rfl rfl rfl

theorem blockInv_of_commandRun {w : CommandWord} {s t : State} (hinv : BlockInv s) (h : CommandRun w s t) :
    BlockInv t := by
  obtain ⟨-, hsolution⟩ := hinv
  cases h with
  | succeeded i t _ hsucceeds =>
    exact ⟨.inl statusDone_eq, solutionLegal_of_same (solutionLegal_of_succeeds hsolution hsucceeds) rfl rfl rfl⟩
  | failed i c _ _ =>
    refine ⟨?_, hsolution⟩
    cases c with
    | noDiv => exact .inr (.inr (.inl statusFailed_noDiv))
    | dcoHi => exact .inr (.inr (.inr statusFailed_dcoHi))
  | illegal => exact ⟨.inr (.inl statusIllegal_eq), hsolution⟩

theorem blockInv_of_eventRun {s t : State} {e : HostEvent} (hinv : BlockInv s) (h : EventRun s e t) : BlockInv t := by
  cases h with
  | command data t hrun => exact blockInv_of_commandRun hinv hrun
  | registerWrite n data r => exact blockInv_of_same hinv (hostWrite_status s r data) (hostWrite_s570 s r data)
  | ignoredWrite => exact hinv
  | read => exact blockInv_of_same hinv rfl rfl
  | reset => exact ⟨.inl rfl, solutionLegal_blockReset s⟩

/-- Settles O46: each outcome of an event keeps the invariant, the new solution of S570FIND because the search gives a
valid pair. -/
theorem stepKeepsTheBlockInvariant : Obligations.StepKeepsTheBlockInvariant := by
  unfold Obligations.StepKeepsTheBlockInvariant
  intro s t hinv hstep
  obtain ⟨-, rfl⟩ | ⟨e, rest, -, hrun⟩ := step_cases hstep
  · exact hinv
  · have hissued : BlockInv (s.issue rest) := blockInv_of_same hinv rfl rfl
    exact blockInv_of_eventRun hissued hrun

end Sys2Proof.Machine
end

section
/-! PROOFS. Which words are illegal (R65), and the build that has the command of a word (R66). -/

namespace Sys2Proof

/-- R65, read off the branches of R64: past the tests of Z and F, only the opcode and the family are left. -/
theorem decode_eq_none_iff (fam : Family) (w : CommandWord) :
    decode fam w = none ↔
      fieldZ w ≠ 0 ∨ (fieldF w ≠ 0 ∧ fieldOp w ≠ 0x2) ∨
      fieldOp w ∈ [0x0, 0x3, 0x6, 0x7, 0xA, 0xB, 0xC, 0xD, 0xE, 0xF] ∨
      (fam = .si570 ∧ fieldOp w ∈ [0x8, 0x9]) ∨ (fam = .si549 ∧ fieldOp w ∈ [0x4, 0x5]) := by
  unfold decode decodeCommand
  generalize fieldZ w = z, fieldF w = f, fieldOp w = op
  by_cases hz : z = 0#6
  · by_cases hf : f = 0#6
    · subst hz hf
      revert op
      cases fam <;> decide
    · by_cases hop : op = 0x2#4 <;> simp [hz, hf, hop]
  · simp [hz]

theorem decode_of_encode_eq {fam : Family} {w : CommandWord} {i : Instr} (hword : encode i = w)
    (hwf : i.WellFormed fam) : decode fam w = some i :=
  hword ▸ decode_encode hwf

/-- Settles O7: each word is the command's own word. -/
theorem sampleWordsDecode : Obligations.SampleWordsDecode := by
  unfold Obligations.SampleWordsDecode
  refine ⟨?_, ?_, ?_, ?_, ?_, ?_, ?_, ?_, ?_⟩ <;> exact decode_of_encode_eq rfl (by decide)

theorem familyFor_of_decode {fam : Family} {w : CommandWord} {i : Instr} (h : decode fam w = some i) :
    familyFor fam w = fam := by
  simp [familyFor, h]

/-- The word of a command of one family takes that family's build, whatever the build was (log 4). -/
theorem familyFor_encode_of_oneFamily (fam : Family) {need : Family} {i : Instr} (hone : i.onlyFamily = some need) :
    familyFor fam (encode i) = need := by
  cases i with
  | mulw | divw => cases hone
  | s570find | s570rfreq | s549div | s549fbdiv =>
    obtain rfl := Option.some.inj hone
    cases fam <;> rfl

theorem familyFor_encode_of_wellFormed {fam : Family} {i : Instr} (hwf : i.WellFormed fam) :
    familyFor fam (encode i) = fam :=
  familyFor_of_decode (decode_encode hwf)

/-- The build taken for a command's word has the command. -/
theorem wellFormed_familyFor_encode (fam : Family) (i : Instr) : i.WellFormed (familyFor fam (encode i)) := by
  cases hone : i.onlyFamily with
  | none => exact wellFormed_of_anyFamily hone
  | some need => exact (wellFormed_iff_of_oneFamily hone).2 (familyFor_encode_of_oneFamily fam hone)

end Sys2Proof
end

section
/-! PROOFS. Writes to CMD, steps and runs: the word's command runs in the state in which the event was issued, every
event is one completed step, and a run takes one step an event. -/

namespace Sys2Proof.Machine

/-! ### Words of CMD -/

theorem runCommandWord_of_decode {w : CommandWord} {s : State} {i : Instr} (hdecode : decode s.family w = some i) :
    runCommandWord w s = exec i s := by
  obtain ⟨j, hj, hrun⟩ | ⟨hnone, -⟩ := runCommandWord_cases w s
  · obtain rfl := Option.some.inj (hdecode.symm.trans hj)
    exact hrun
  · rw [hdecode] at hnone
    cases hnone

/-- Settles O5: past the check of the family, a command that the build lacks is an illegal word. -/
theorem absentCommandsAreIllegal : Obligations.AbsentCommandsAreIllegal := by
  unfold Obligations.AbsentCommandsAreIllegal
  intro i s habsent
  rw [exec_of_not_wellFormed habsent, illegalCommand_eq]

/-- Settles O6: a write to CMD runs the word in the low 16 bits. -/
theorem highCommandDataIsIgnored : Obligations.HighCommandDataIsIgnored := by
  unfold Obligations.HighCommandDataIsIgnored
  intro s data data' hlow
  rw [perform_write_cmd, perform_write_cmd, hlow]

/-- No command of the build leaves ILL set. -/
theorem statusIll_of_exec {i : Instr} {s : State} (hwf : i.WellFormed s.family) :
    ∃ t, exec i s = .next t ∧ statusIll t.status = false := by
  obtain ⟨t, -, hexec⟩ | ⟨c, -, hexec⟩ := exec_cases hwf
  · exact ⟨_, hexec, statusIll_statusWord false false 0⟩
  · exact ⟨_, hexec, statusIll_statusWord true false c.code⟩

/-- Settles O4: the illegal words are those of `decode_eq_none_iff`, their effect that of `illegalCommand`, and no
command of the build sets ILL. -/
theorem illegalWordsWriteOnlyStatus : Obligations.IllegalWordsWriteOnlyStatus := by
  unfold Obligations.IllegalWordsWriteOnlyStatus
  intro s
  refine ⟨decode_eq_none_iff s.family, ?effect, ?zeros, ?ones, fun i hwf => statusIll_of_exec hwf⟩
  case effect =>
    intro data hillegal
    rw [perform_write_cmd, runCommandWord_of_decode_eq_none hillegal, illegalCommand_eq]
  case zeros => exact (decode_eq_none_iff _ _).2 (.inr (.inr (.inl (by decide))))
  case ones => exact (decode_eq_none_iff _ _).2 (.inl (by decide))

/-! ### One step -/

/-- Settles O8: the step performs the write to CMD in the state in which it is issued, and that runs the command. -/
theorem stepRunsTheDecodedCommand : Obligations.StepRunsTheDecodedCommand := by
  unfold Obligations.StepRunsTheDecodedCommand
  intro s data rest i hpending hdecode
  have hissued : decode (s.issue rest).family (data.setWidth 16) = some i := hdecode
  rw [step_pending s _ rest hpending, perform_write_cmd, runCommandWord_of_decode hissued]
  rfl

theorem commandWordOf_dataOfCommand (w : CommandWord) : commandWordOf (dataOfCommand w) = w :=
  BitVec.setWidth_setWidth_of_le w (by decide)

theorem tableWord_encode (i : Instr) : tableWord 16 (encode i).toNat = encode i := by
  rw [tableWord, Nat.mod_eq_of_lt (encode i).isLt, BitVec.ofNat_toNat, BitVec.setWidth_eq]

/-- The step after a command word is placed runs that word, in the build that it took. -/
theorem step_withCommand (s : State) (w : CommandWord) :
    step (s.withCommand w) = runCommandWord w
      { s with family := familyFor s.family w, port := { s.port with issued := s.port.issued + 1 } } := by
  have hpending : (s.withCommand w).port.pending = .write 0x00 (dataOfCommand w) :: s.port.pending := rfl
  rw [step_pending _ _ _ hpending, perform_write_cmd]
  exact congrArg (runCommandWord · _) (commandWordOf_dataOfCommand w)

/-- Settles O9: the build taken is `familyFor`, which has the command and is the state's own where that has it. -/
theorem fetchWordRunsNext : Obligations.FetchWordRunsNext := by
  unfold Obligations.FetchWordRunsNext
  intro s i
  have hwf := wellFormed_familyFor_encode s.family i
  refine ⟨familyFor s.family (encode i), hwf, familyFor_encode_of_wellFormed, ?_⟩
  rw [State.withFetchWord, tableWord_encode, step_withCommand, runCommandWord_of_decode (decode_encode hwf)]

theorem eventRun_family {s t : State} {e : HostEvent} (h : EventRun s e t) : t.family = s.family := by
  cases h with
  | command data t hrun => exact commandRun_family hrun
  | registerWrite n data r => exact hostWrite_family s r data
  | ignoredWrite | read | reset => rfl

/-- Only reads touch the host's side. -/
theorem eventRun_port {s t : State} {e : HostEvent} (h : EventRun s e t) :
    (∃ n, e = .read n ∧ t = s.returnData (s.portData n)) ∨ ((∀ n, e ≠ .read n) ∧ t.port = s.port) := by
  cases h with
  | command data t hrun => exact .inr ⟨nofun, commandRun_port hrun⟩
  | registerWrite n data r => exact .inr ⟨nofun, hostWrite_port s r data⟩
  | ignoredWrite | reset => exact .inr ⟨nofun, rfl⟩
  | read n => exact .inl ⟨n, rfl, rfl⟩

/-- With an event pending, the step completes in one of the ways of that event. -/
theorem step_completes {s : State} {e : HostEvent} {rest : List HostEvent} (hpending : s.port.pending = e :: rest) :
    ∃ t, step s = .next t ∧ EventRun (s.issue rest) e t := by
  rw [step_pending s e rest hpending]
  exact perform_completes e (s.issue rest)

/-- The event is taken off the list and the position advances. -/
theorem pending_of_eventRun {s t : State} {e : HostEvent} {rest : List HostEvent} (h : EventRun (s.issue rest) e t) :
    t.port.pending = rest ∧ t.port.issued = s.port.issued + 1 := by
  obtain ⟨n, -, rfl⟩ | ⟨-, hport⟩ := eventRun_port h
  · exact ⟨rfl, rfl⟩
  · rw [hport]
    exact ⟨rfl, rfl⟩

/-- Settles O10: the step is the event's one completed outcome, and only a read returns data. -/
theorem everyEventIsOneCompletedStep : Obligations.EveryEventIsOneCompletedStep := by
  unfold Obligations.EveryEventIsOneCompletedStep
  intro s e rest hpending
  obtain ⟨t, hstep, hrun⟩ := step_completes hpending
  obtain ⟨hrest, hissued⟩ := pending_of_eventRun hrun
  refine ⟨t, hstep, (eventRun_family hrun).trans (issue_family s rest), hrest, hissued, ?_⟩
  obtain ⟨n, he, rfl⟩ | ⟨hread, hport⟩ := eventRun_port hrun
  · exact .inl ⟨n, he, _, rfl⟩
  · exact .inr ⟨hread, by rw [hport]; rfl⟩

/-! ### Runs -/

theorem run_succ {s t : State} (hstep : step s = .next t) (k : Nat) : core.run (k + 1) s = core.run k t := by
  have hcore : core.step s = .next t := hstep
  simp [Host.Core.run, hcore]

/-- A run over the events `front` completes, one step an event. -/
theorem run_completes (front : List HostEvent) {s : State} {rest : List HostEvent}
    (hpending : s.port.pending = front ++ rest) :
    ∃ t, core.run front.length s = .next t ∧ t.port.pending = rest ∧ t.port.issued = s.port.issued + front.length := by
  induction front generalizing s with
  | nil => exact ⟨s, rfl, hpending, rfl⟩
  | cons e front ih =>
    obtain ⟨t, hstep, hevent⟩ := step_completes hpending
    obtain ⟨hrest, hissued⟩ := pending_of_eventRun hevent
    obtain ⟨u, hrun, hend, hposition⟩ := ih hrest
    refine ⟨u, (run_succ hstep _).trans hrun, hend, ?_⟩
    rw [hposition, hissued, List.length_cons, Nat.add_assoc, Nat.add_comm 1]

/-- Settles O11: the run over all pending events completes, and the block then idles. -/
theorem finiteRunsEnd : Obligations.FiniteRunsEnd := by
  unfold Obligations.FiniteRunsEnd
  intro s
  obtain ⟨t, hrun, hend, hposition⟩ := run_completes s.port.pending (List.append_nil _).symm
  exact ⟨t, hrun, hend, hposition, step_idle t hend⟩

end Sys2Proof.Machine
end

section
/-! PROOFS. The registers one by one: what each write of the block, the host's or a command's, does to the register it
names and leaves of every other. Resets, write sets and the stored form are read off these rules. -/

namespace Sys2Proof.Machine

/-! ### The same register in two states -/

theorem sameRegister_refl (s : State) (r : Reg) : SameRegister s s r := ⟨rfl, rfl⟩

theorem SameRegister.trans {s t u : State} {r : Reg} (h : SameRegister s t r) (h' : SameRegister t u r) :
    SameRegister s u r := by
  obtain ⟨hholds, hstored⟩ := h
  obtain ⟨hholds', hstored'⟩ := h'
  exact ⟨hholds'.trans hholds, hstored'.trans hstored⟩

theorem sameRegister_of_sameRegisters {s t : State} (h : SameRegisters s t) {r : Reg} (hr : r ≠ .status) :
    SameRegister s t r := by
  obtain ⟨hwide, hsetup, hs570, hs549⟩ := h
  cases r with
  | status => exact absurd rfl hr
  | _ => simp [SameRegister, State.holds, State.stored, hwide, hsetup, hs570, hs549]

theorem sameRegister_setStatus (s : State) (v : BitVec 8) {r : Reg} (hr : r ≠ .status) :
    SameRegister s (s.setStatus v) r :=
  have hsame : SameRegisters s (s.setStatus v) := ⟨rfl, rfl, rfl, rfl⟩
  sameRegister_of_sameRegisters hsame hr

@[simp] theorem holds_setStatus (s : State) (v : BitVec 8) (r : Reg) : (s.setStatus v).holds r = s.holds r := by
  cases r <;> rfl

theorem holds_complete (s : State) (r : Reg) : s.complete.holds r = s.holds r := holds_setStatus s _ r

theorem sameRegister_issue (s : State) (rest : List HostEvent) (r : Reg) : SameRegister s (s.issue rest) r := by
  cases r <;> exact ⟨rfl, rfl⟩

theorem sameRegister_returnData (s : State) (v : PortData) (r : Reg) : SameRegister s (s.returnData v) r := by
  cases r <;> exact ⟨rfl, rfl⟩

/-! ### A command's writes -/

theorem sameRegister_writeP (s : State) (v : BitVec 48) {r : Reg} (hr : r ∉ resultsOf .mulw) :
    SameRegister s (s.writeP v) r := by
  cases r with
  | p => exact absurd (List.mem_singleton.2 rfl) hr
  | _ => exact ⟨rfl, rfl⟩

theorem sameRegister_writeQ (s : State) (v : BitVec 48) {f : BitVec 6} {r : Reg} (hr : r ∉ resultsOf (.divw f)) :
    SameRegister s (s.writeQ v) r := by
  cases r with
  | q => exact absurd (List.mem_singleton.2 rfl) hr
  | _ => exact ⟨rfl, rfl⟩

theorem sameRegister_writePair (s : State) (hs n : Nat) {r : Reg} (hr : r ∉ resultsOf .s570find) :
    SameRegister s (s.writePair hs n) r := by
  cases r with
  | s570HsDiv | s570N1 | s570N => exact absurd (by decide) hr
  | _ => exact ⟨rfl, rfl⟩

theorem sameRegister_writeRfreq (s : State) (v : BitVec 38) {r : Reg} (hr : r ∉ resultsOf .s570rfreq) :
    SameRegister s (s.writeRfreq v) r := by
  cases r with
  | s570Rfreq => exact absurd (List.mem_singleton.2 rfl) hr
  | _ => exact ⟨rfl, rfl⟩

theorem sameRegister_writeS549Dividers (s : State) (h : BitVec 16) (l : BitVec 3) {r : Reg}
    (hr : r ∉ resultsOf .s549div) : SameRegister s (s.writeS549Dividers h l) r := by
  cases r with
  | s549HsDiv | s549LsDiv => exact absurd (by decide) hr
  | _ => exact ⟨rfl, rfl⟩

theorem sameRegister_writeFbDiv (s : State) (v : BitVec 43) {r : Reg} (hr : r ∉ resultsOf .s549fbdiv) :
    SameRegister s (s.writeFbDiv v) r := by
  cases r with
  | s549FbDiv => exact absurd (List.mem_singleton.2 rfl) hr
  | _ => exact ⟨rfl, rfl⟩

/-- A command that succeeds writes no register but its results (R36). -/
theorem sameRegister_of_succeeds {i : Instr} {s t : State} (h : Succeeds s i t) {r : Reg} (hr : r ∉ resultsOf i) :
    SameRegister s t r := by
  cases h with
  | mulw => exact sameRegister_writeP s _ hr
  | divw f => exact sameRegister_writeQ s _ hr
  | s570find sol _ => exact sameRegister_writePair s sol.hsDiv sol.n1 hr
  | s570rfreq _ => exact sameRegister_writeRfreq s _ hr
  | s549div => exact sameRegister_writeS549Dividers s _ _ hr
  | s549fbdiv => exact sameRegister_writeFbDiv s _ hr

/-- A command that succeeds writes every one of its results (R36). -/
theorem holds_of_succeeds {i : Instr} {s t : State} (h : Succeeds s i t) {r : Reg} (hr : r ∈ resultsOf i) :
    t.holds r = true := by
  cases h with
  | mulw | divw f | s570rfreq _ | s549fbdiv =>
    obtain rfl := List.mem_singleton.1 hr
    rfl
  | s549div =>
    obtain rfl | rfl := List.mem_pair.1 hr <;> rfl
  | s570find sol _ =>
    simp only [resultsOf, List.mem_cons, List.not_mem_nil, or_false] at hr
    obtain rfl | rfl | rfl := hr <;> rfl

theorem resultsOf_access {i : Instr} {r : Reg} (h : r ∈ resultsOf i) : r.access = .ro := by
  have hall : ∀ r ∈ resultsOf i, r.access = .ro := by cases i <;> simp [resultsOf, Reg.access]
  exact hall r h

theorem resultsOf_presentIn {i : Instr} {fam : Family} (hwf : i.WellFormed fam) {r : Reg} (h : r ∈ resultsOf i) :
    r.presentIn fam = true := by
  have hall : ∀ r ∈ resultsOf i, r.presentIn fam = true := by
    cases i with
    | mulw | divw f => simp [resultsOf, Reg.presentIn]
    | s570find | s570rfreq | s549div | s549fbdiv =>
      obtain rfl := (wellFormed_iff_of_oneFamily rfl).1 hwf
      simp [resultsOf, Reg.presentIn]
  exact hall r h

/-- What a write to CMD can do to a register: STATUS aside, it is written where it is a result of the word's command
and the command succeeds, and else kept (R36, R145). -/
theorem commandRun_register {w : CommandWord} {s t : State} (h : CommandRun w s t) {r : Reg} (hr : r ≠ .status) :
    SameRegister s t r ∨
      ∃ i, decode s.family w = some i ∧ r ∈ resultsOf i ∧ t.status = 0x00 ∧ t.holds r = true := by
  cases h with
  | succeeded i t hdecode hsucceeds =>
    by_cases hresult : r ∈ resultsOf i
    · exact .inr ⟨i, hdecode, hresult, statusDone_eq, (holds_complete t r).trans (holds_of_succeeds hsucceeds hresult)⟩
    · exact .inl ((sameRegister_of_succeeds hsucceeds hresult).trans (sameRegister_setStatus t _ hr))
  | failed i c => exact .inl (sameRegister_setStatus s _ hr)
  | illegal => exact .inl (sameRegister_setStatus s _ hr)

theorem status_zero_or_same_of_commandRun {w : CommandWord} {s t : State} (h : CommandRun w s t) :
    t.status = 0x00 ∨ (SameRegisters s t ∧ SameOutside s t) := by
  cases h with
  | succeeded => exact .inl statusDone_eq
  | failed | illegal => exact .inr ⟨⟨rfl, rfl, rfl, rfl⟩, rfl, rfl⟩

/-- Settles O34: of the three outcomes, only the success writes more than STATUS, and its STATUS is 0x00. -/
theorem failuresArePrecise : Obligations.FailuresArePrecise := by
  unfold Obligations.FailuresArePrecise
  intro w s
  obtain ⟨t, hnext, hrun⟩ := runCommandWord_completes w s
  exact ⟨t, hnext, (status_zero_or_same_of_commandRun hrun).resolve_left⟩

theorem statusFailed_ne_zero (c : Cause) : statusFailed c ≠ 0x00 := by
  cases c <;> decide

/-- Settles O36: a success writes the results and STATUS, a failure STATUS. -/
theorem commandsWriteOnlyTheirResults : Obligations.CommandsWriteOnlyTheirResults := by
  unfold Obligations.CommandsWriteOnlyTheirResults
  refine ⟨fun i s hwf => ?command, fun i r hr => resultsOf_access hr, fun w s hillegal => ?illegal⟩
  case illegal => rw [runCommandWord_of_decode_eq_none hillegal, illegalCommand_eq]
  case command =>
    obtain ⟨t, hsucceeds, hexec⟩ | ⟨c, -, hexec⟩ := exec_cases hwf
    · have houtside : SameOutside s t.complete :=
        ⟨(complete_family t).trans (succeeds_family hsucceeds), (complete_port t).trans (succeeds_port hsucceeds)⟩
      refine ⟨_, hexec, houtside, fun r hr hresult => ?others, fun _ r hresult => ?results, ?failure⟩
      case others => exact (sameRegister_of_succeeds hsucceeds hresult).trans (sameRegister_setStatus t _ hr)
      case results => exact (holds_complete t r).trans (holds_of_succeeds hsucceeds hresult)
      case failure => exact fun hfailed => absurd statusDone_eq hfailed
    · have hsame : SameRegisters s (s.raiseFail c) := ⟨rfl, rfl, rfl, rfl⟩
      exact ⟨_, hexec, ⟨rfl, rfl⟩, fun r hr _ => sameRegister_of_sameRegisters hsame hr,
        fun hdone => absurd hdone (statusFailed_ne_zero c), fun _ => hsame⟩

/-! ### The host's writes and reset -/

/-- The low bits of the data, as many as the register is wide (R43). -/
theorem hostWrite_register (s : State) {r : Reg} (hrw : r.access = .rw) (data : PortData) :
    (s.hostWrite r data).holds r = true ∧ (s.hostWrite r data).stored r = data.toNat % 2 ^ r.width := by
  cases r with
  | a | b | x | d | freq | xtal | dcoMin | dcoMax | grade => exact ⟨rfl, BitVec.toNat_setWidth _ _⟩
  | _ => cases hrw

theorem sameRegister_hostWrite (s : State) {r r' : Reg} (hr : r' ≠ r) (data : PortData) :
    SameRegister s (s.hostWrite r data) r' := by
  cases r with
  | a | b | x | d | freq | xtal | dcoMin | dcoMax | grade =>
    cases r' <;> first | exact ⟨rfl, rfl⟩ | exact absurd rfl hr
  | _ => exact sameRegister_refl s r'

/-- Settles O38: the four kinds of number that a host may write to. -/
theorem hostWrites : Obligations.HostWrites := by
  unfold Obligations.HostWrites
  intro n data s
  refine ⟨fun r hreg hrw => ?rw, ?cmd, fun r hreg hro => perform_write_readOnly hreg hro data,
    fun hnone => perform_write_unmapped hnone data⟩
  case rw =>
    have hcmd : r ≠ .cmd := by rintro rfl; cases hrw
    obtain ⟨hholds, hstored⟩ := hostWrite_register s hrw data
    exact ⟨_, perform_registerWrite hreg hcmd data, hholds, hstored, fun r' hr' => sameRegister_hostWrite s hr' data,
      hostWrite_family s r data, hostWrite_port s r data⟩
  case cmd =>
    rintro rfl
    exact perform_write_cmd data s

theorem holds_resetFor (fam : Family) {r : Reg} (hcmd : r ≠ .cmd) (hstatus : r ≠ .status) :
    (State.resetFor fam).holds r = false := by
  cases r with
  | cmd => exact absurd rfl hcmd
  | status => exact absurd rfl hstatus
  | _ => rfl

theorem stored_resetFor (fam : Family) (r : Reg) : (State.resetFor fam).stored r = 0 := by
  cases r <;> rfl

theorem sameRegister_blockReset (s : State) (r : Reg) : SameRegister (State.resetFor s.family) s.blockReset r := by
  cases r <;> exact ⟨rfl, rfl⟩

/-- Settles O44: a reset leaves the registers of `State.resetFor`. -/
theorem resetClearsEveryRegister : Obligations.ResetClearsEveryRegister := by
  unfold Obligations.ResetClearsEveryRegister
  refine ⟨fun s => ⟨s.blockReset, rfl, rfl, fun r hcmd hstatus => ?event, rfl, rfl⟩,
    fun fam => ⟨rfl, rfl, fun r => holds_resetFor fam⟩⟩
  obtain ⟨hholds, -⟩ := sameRegister_blockReset s r
  rw [hholds, holds_resetFor s.family hcmd hstatus]

/-! ### One event, and one step -/

/-- What an event can do to a register: keep it, leave it holding a value (an RW register, a result or STATUS), or
reset it. -/
theorem eventRun_register {s t : State} {e : HostEvent} (h : EventRun s e t) (r : Reg) :
    SameRegister s t r ∨ (r.presentIn s.family = true ∧ t.holds r = true) ∨ (e = .reset ∧ t = s.blockReset) := by
  cases h with
  | command data t hrun =>
    by_cases hr : r = .status
    · subst hr
      exact .inr (.inl ⟨rfl, rfl⟩)
    · obtain hsame | ⟨i, hdecode, hresult, -, hholds⟩ := commandRun_register hrun hr
      · exact .inl hsame
      · exact .inr (.inl ⟨resultsOf_presentIn (wellFormed_of_decode hdecode) hresult, hholds⟩)
  | registerWrite n data r' hreg hrw =>
    by_cases hr : r = r'
    · subst hr
      obtain ⟨hpresent, -⟩ := (regAt_eq_some _ _ _).1 hreg
      obtain ⟨hholds, -⟩ := hostWrite_register s hrw data
      exact .inr (.inl ⟨hpresent, hholds⟩)
    · exact .inl (sameRegister_hostWrite s hr data)
  | ignoredWrite => exact .inl (sameRegister_refl s r)
  | read n => exact .inl (sameRegister_returnData s _ r)
  | reset => exact .inr (.inr ⟨rfl, rfl⟩)

/-! ### The stored form (log 4, log 5) -/

theorem storageCanonical_resetFor (fam : Family) : StorageCanonical (State.resetFor fam) := by
  refine fun r => ⟨fun habsent => holds_resetFor fam ?_ ?_, fun _ => stored_resetFor fam r⟩
  all_goals
    rintro rfl
    cases habsent

theorem blockInv_resetFor (fam : Family) : BlockInv (State.resetFor fam) :=
  ⟨.inl rfl, .inl ⟨rfl, rfl, rfl⟩⟩

/-- Settles O45: after reset no register but CMD and STATUS holds a value, and every stored word is 0. -/
theorem resetMeetsTheInvariants : Obligations.ResetMeetsTheInvariants := by
  unfold Obligations.ResetMeetsTheInvariants
  exact ⟨fun fam => ⟨blockInv_resetFor fam, storageCanonical_resetFor fam⟩, rfl⟩

theorem storageCanonical_blockReset (s : State) : StorageCanonical s.blockReset := by
  intro r
  obtain ⟨hholds, hstored⟩ := sameRegister_blockReset s r
  rw [hholds, hstored]
  exact storageCanonical_resetFor s.family r

/-- An event keeps the stored form register by register: a kept register keeps it, a written one holds a value and is
one of the build's. -/
theorem storageCanonical_of_eventRun {s t : State} {e : HostEvent} (hcanonical : StorageCanonical s)
    (h : EventRun s e t) : StorageCanonical t := by
  intro r
  obtain ⟨hholds, hstored⟩ | ⟨hpresent, hholds⟩ | ⟨-, rfl⟩ := eventRun_register h r
  · rw [hholds, hstored, eventRun_family h]
    exact hcanonical r
  · rw [eventRun_family h, hpresent, hholds]
    exact ⟨nofun, nofun⟩
  · exact storageCanonical_blockReset s r

theorem storageCanonical_issue {s : State} (hcanonical : StorageCanonical s) (rest : List HostEvent) :
    StorageCanonical (s.issue rest) := by
  intro r
  obtain ⟨hholds, hstored⟩ := sameRegister_issue s rest r
  rw [hholds, hstored, issue_family]
  exact hcanonical r

/-- Settles O47: issuing an event and each of its outcomes keep the stored form. -/
theorem stepKeepsStorageCanonical : Obligations.StepKeepsStorageCanonical := by
  unfold Obligations.StepKeepsStorageCanonical
  intro s t hcanonical hstep
  obtain ⟨-, rfl⟩ | ⟨e, rest, -, hrun⟩ := step_cases hstep
  · exact hcanonical
  · exact storageCanonical_of_eventRun (storageCanonical_issue hcanonical rest) hrun

/-! ### What takes values away, and what changes STATUS and the cached solution (R161) -/

/-- The three registers of the cached solution are the same in both states. -/
def SameSolution (s t : State) : Prop :=
  t.s570.hsDiv = s.s570.hsDiv ∧ t.s570.n1 = s.s570.n1 ∧ t.s570.n = s.s570.n

theorem sameSolution_or_found_of_succeeds {i : Instr} {s t : State} (h : Succeeds s i t) :
    SameSolution s t ∨ i = .s570find := by
  cases h with
  | s570find => exact .inr rfl
  | mulw | divw | s570rfreq | s549div | s549fbdiv => exact .inl ⟨rfl, rfl, rfl⟩

theorem sameSolution_or_found_of_commandRun {w : CommandWord} {s t : State} (h : CommandRun w s t) :
    SameSolution s t ∨ (decode s.family w = some .s570find ∧ t.status = 0x00) := by
  cases h with
  | succeeded i t hdecode hsucceeds =>
    obtain hsame | rfl := sameSolution_or_found_of_succeeds hsucceeds
    · exact .inl hsame
    · exact .inr ⟨hdecode, statusDone_eq⟩
  | failed | illegal => exact .inl ⟨rfl, rfl, rfl⟩

theorem eventRun_status {s t : State} {e : HostEvent} (h : EventRun s e t) :
    t.status = s.status ∨ e = .reset ∨ ∃ data, e = .write 0x00 data := by
  cases h with
  | command data => exact .inr (.inr ⟨data, rfl⟩)
  | registerWrite n data r => exact .inl (hostWrite_status s r data)
  | ignoredWrite | read => exact .inl rfl
  | reset => exact .inr (.inl rfl)

theorem eventRun_solution {s t : State} {e : HostEvent} (h : EventRun s e t) :
    SameSolution s t ∨ e = .reset ∨
      ∃ data, e = .write 0x00 data ∧ decode s.family (data.setWidth 16) = some .s570find ∧ t.status = 0x00 := by
  cases h with
  | command data t hrun =>
    obtain hsame | ⟨hdecode, hstatus⟩ := sameSolution_or_found_of_commandRun hrun
    · exact .inl hsame
    · exact .inr (.inr ⟨data, rfl, hdecode, hstatus⟩)
  | registerWrite n data r => exact .inl (by simp [SameSolution])
  | ignoredWrite | read => exact .inl ⟨rfl, rfl, rfl⟩
  | reset => exact .inr (.inl rfl)

/-- Settles O48: each change is traced to the event of the step. -/
theorem onlyResetTakesValuesAway : Obligations.OnlyResetTakesValuesAway := by
  unfold Obligations.OnlyResetTakesValuesAway
  intro s t hstep
  obtain ⟨-, rfl⟩ | ⟨e, rest, hpending, hrun⟩ := step_cases hstep
  · exact ⟨fun r hheld hlost => absurd (hheld.symm.trans hlost) nofun, fun h => absurd rfl h,
      fun h => absurd ⟨rfl, rfl, rfl⟩ h⟩
  · rw [hpending]
    refine ⟨fun r hheld hlost => ?values, fun hstatus => ⟨rest, ?status⟩, fun hsolution => ⟨rest, ?solution⟩⟩
    case values =>
      obtain ⟨hissued, -⟩ := sameRegister_issue s rest r
      obtain ⟨hholds, -⟩ | ⟨-, hholds⟩ | ⟨rfl, -⟩ := eventRun_register hrun r
      · exact absurd (hheld.symm.trans ((hholds.trans hissued).symm.trans hlost)) nofun
      · exact absurd (hholds.symm.trans hlost) nofun
      · exact ⟨rest, rfl⟩
    case status =>
      obtain hsame | rfl | ⟨data, rfl⟩ := eventRun_status hrun
      · exact absurd hsame hstatus
      · exact .inl rfl
      · exact .inr ⟨data, rfl⟩
    case solution =>
      obtain hsame | rfl | ⟨data, rfl, hfound⟩ := eventRun_solution hrun
      · exact absurd hsame hsolution
      · exact .inl rfl
      · exact .inr ⟨data, rfl, hfound⟩

end Sys2Proof.Machine
end

section
/-! PROOFS. Reads: the data of a read is the value held or a free value of the register's width (R35, R44), and a value
stays in its register until an event that writes it (R47). -/

namespace Sys2Proof.Machine

/-! ### The data of a register -/

theorem shown_data_of_held {w : Nat} (hw : w ≤ 48) {reg : Register w} (h : reg.held = true) (name : Reg) (k : Nat) :
    ((reg.shown name k).setWidth 48).toNat = reg.word.toNat := by
  rw [shown_of_held reg name k h, BitVec.toNat_setWidth_of_le hw]

theorem shown_data_lt {w : Nat} (hw : w ≤ 48) (reg : Register w) (name : Reg) (k : Nat) :
    ((reg.shown name k).setWidth 48).toNat < 2 ^ w := by
  rw [BitVec.toNat_setWidth_of_le hw]
  exact (reg.shown name k).isLt

theorem shown_data_of_not_held {w : Nat} {reg : Register w} (h : reg.held = false) (name : Reg) (k : Nat) :
    (reg.shown name k).setWidth 48 = (Config.unwrittenValue w name.number k).setWidth 48 := by
  rw [shown_of_not_held reg name k h]

theorem data_of_holds {s : State} {r : Reg} (h : s.holds r = true) : (s.data r).toNat = s.stored r := by
  cases r with
  | cmd => rfl
  | status => exact BitVec.toNat_setWidth_of_le (by decide)
  | _ => exact shown_data_of_held (by decide) h _ _

theorem data_lt (s : State) (r : Reg) : (s.data r).toNat < 2 ^ r.width := by
  cases r with
  | cmd => exact Nat.two_pow_pos 16
  | status => exact (BitVec.toNat_setWidth_of_le (by decide)).trans_lt s.status.isLt
  | _ => exact shown_data_lt (by decide) _ _ _

theorem data_of_not_holds {s : State} {r : Reg} (h : s.holds r = false) :
    s.data r = (Config.unwrittenValue r.width r.number s.port.issued).setWidth 48 := by
  cases r with
  | cmd | status => cases h
  | _ => exact shown_data_of_not_held h _ _

theorem portData_of_regAt {s : State} {n : RegNumber} {r : Reg} (h : regAt s.family n = some r) :
    s.portData n = s.data r := by
  simp [State.portData, h]

theorem portData_unmapped {s : State} {n : RegNumber} (h : regAt s.family n = none) : s.portData n = 0 := by
  simp [State.portData, h]

/-- Settles O39: the datum is `State.portData`, and the read appends it. -/
theorem hostReads : Obligations.HostReads := by
  unfold Obligations.HostReads
  intro n s
  refine ⟨_, s.portData n, rfl, rfl, fun r hreg hholds => ?_, fun r hreg => ?_, ?_⟩
  · rw [portData_of_regAt hreg, data_of_holds hholds]
  · rw [portData_of_regAt hreg]
    exact data_lt s r
  · rintro (rfl | hnone)
    · exact portData_of_regAt (regAt_cmd s.family)
    · exact portData_unmapped hnone

/-! ### The operands -/

theorem takenFrom_shown {w : Nat} (reg : Register w) (name : Reg) (k : Nat) :
    TakenFrom (reg.shown name k) reg name k :=
  ⟨shown_of_held reg name k, shown_of_not_held reg name k⟩

/-- Settles O40: reads and operands take what `Register.shown` gives. -/
theorem registersWithoutAValueShowFreeValues : Obligations.RegistersWithoutAValueShowFreeValues := by
  unfold Obligations.RegistersWithoutAValueShowFreeValues
  refine ⟨fun n r s hreg hfree => ?read, fun s => ?operands, fun reg name k => takenFrom_shown reg name k, rfl⟩
  case read => rw [portData_of_regAt hreg, data_of_not_holds hfree]
  case operands =>
    exact ⟨takenFrom_shown _ _ _, takenFrom_shown _ _ _, takenFrom_shown _ _ _, takenFrom_shown _ _ _,
      takenFrom_shown _ _ _, takenFrom_shown _ _ _, takenFrom_shown _ _ _, takenFrom_shown _ _ _,
      ⟨_, takenFrom_shown _ _ _, rfl⟩, takenFrom_shown _ _ _, takenFrom_shown _ _ _, takenFrom_shown _ _ _⟩

/-! ### What an event writes -/

theorem family_of_step {s t : State} (hstep : step s = .next t) : t.family = s.family := by
  obtain ⟨-, rfl⟩ | ⟨e, rest, -, hrun⟩ := step_cases hstep
  · rfl
  · exact (eventRun_family hrun).trans (issue_family s rest)

theorem commandWrites_status (s : State) (w : CommandWord) : commandWrites s w .status = true := rfl

theorem commandWrites_result {s t : State} {w : CommandWord} {i : Instr} {r : Reg}
    (hdecode : decode s.family w = some i) (hstep : step s = .next t) (hresult : r ∈ resultsOf i)
    (hstatus : t.status = 0x00) : commandWrites s w r = true := by
  simp [commandWrites, hdecode, hstep, hresult, hstatus]

theorem commandWrites_of_free {s : State} {data : PortData} {rest : List HostEvent} {r : Reg}
    (hpending : s.port.pending = .write 0x00 data :: rest) (hfree : nextEventWrites s r = false) :
    commandWrites s (data.setWidth 16) r = false := by
  simp only [nextEventWrites, hpending, Bool.or_eq_false_iff] at hfree
  obtain ⟨-, hcommand⟩ := hfree
  simpa using hcommand

theorem ne_of_free {s : State} {n : RegNumber} {data : PortData} {rest : List HostEvent} {r r' : Reg}
    (hpending : s.port.pending = .write n data :: rest) (hreg : regAt s.family n = some r') (hrw : r'.access = .rw)
    (hfree : nextEventWrites s r = false) : r ≠ r' := by
  rintro rfl
  simp [nextEventWrites, hpending, hreg, hrw] at hfree

/-- A step whose event does not write the register keeps it. -/
theorem sameRegister_of_free_step {s t : State} {r : Reg} (hfree : nextEventWrites s r = false)
    (hstep : step s = .next t) : SameRegister s t r := by
  obtain ⟨-, rfl⟩ | ⟨e, rest, hpending, hrun⟩ := step_cases hstep
  · exact sameRegister_refl _ r
  · refine (sameRegister_issue s rest r).trans ?_
    cases hrun with
    | command data t hrun =>
      have hnot := commandWrites_of_free hpending hfree
      have hr : r ≠ .status := by
        rintro rfl
        exact Bool.false_ne_true (hnot.symm.trans (commandWrites_status s _))
      obtain hsame | ⟨i, hdecode, hresult, hstatus, -⟩ := commandRun_register hrun hr
      · exact hsame
      · have hdecode : decode s.family (data.setWidth 16) = some i := hdecode
        exact absurd (hnot.symm.trans (commandWrites_result hdecode hstep hresult hstatus)) Bool.false_ne_true
    | registerWrite n data r' hreg hrw => exact sameRegister_hostWrite _ (ne_of_free hpending hreg hrw hfree) data
    | ignoredWrite => exact sameRegister_refl _ r
    | read n => exact sameRegister_returnData _ _ r
    | reset => simp [nextEventWrites, hpending] at hfree

/-- Events none of which writes the register keep it. -/
theorem sameRegister_of_free_run (mid : List HostEvent) {t : State} {rest : List HostEvent} {r : Reg}
    (hpending : t.port.pending = mid ++ rest)
    (hfree : ∀ k x, k < mid.length → core.run k t = .next x → nextEventWrites x r = false) :
    ∃ u : State, core.run mid.length t = .next u ∧ u.port.pending = rest ∧ u.family = t.family ∧
      SameRegister t u r := by
  induction mid generalizing t with
  | nil => exact ⟨t, rfl, hpending, rfl, sameRegister_refl t r⟩
  | cons e mid ih =>
    obtain ⟨t', hstep, hevent⟩ := step_completes hpending
    obtain ⟨hrest, -⟩ := pending_of_eventRun hevent
    have hkept : SameRegister t t' r := sameRegister_of_free_step (hfree 0 t (Nat.succ_pos _) rfl) hstep
    obtain ⟨u, hrun, hend, hfamily, hsame⟩ := ih hrest fun k x hk hx =>
      hfree (k + 1) x (Nat.succ_lt_succ hk) ((run_succ hstep k).trans hx)
    exact ⟨u, (run_succ hstep _).trans hrun, hend, hfamily.trans (family_of_step hstep), hkept.trans hsame⟩

/-! ### A read after a write -/

theorem step_read {s : State} {n : RegNumber} {rest : List HostEvent} (hpending : s.port.pending = .read n :: rest) :
    step s = .next ((s.issue rest).returnData ((s.issue rest).portData n)) :=
  step_pending s _ rest hpending

/-- After the step of a host write the register holds the low bits of the data. -/
theorem register_after_write_step {s t : State} {n : RegNumber} {r : Reg} {value : PortData} {tail : List HostEvent}
    (hpending : s.port.pending = .write n value :: tail) (hreg : regAt s.family n = some r) (hrw : r.access = .rw)
    (hstep : step s = .next t) : t.holds r = true ∧ t.stored r = value.toNat % 2 ^ r.width := by
  have hcmd : r ≠ .cmd := by rintro rfl; cases hrw
  have hissued : regAt (s.issue tail).family n = some r := hreg
  rw [step_pending s _ tail hpending, perform_registerWrite hissued hcmd] at hstep
  obtain rfl := Host.Outcome.next.inj hstep
  exact hostWrite_register (s.issue tail) hrw value

theorem holds_result_of_exec {i : Instr} {s t : State} {r : Reg} (hwf : i.WellFormed s.family)
    (hexec : exec i s = .next t) (hresult : r ∈ resultsOf i) (hstatus : t.status = 0x00) : t.holds r = true := by
  obtain ⟨t', hsucceeds, hnext⟩ | ⟨c, -, hnext⟩ := exec_cases hwf
  · obtain rfl := Host.Outcome.next.inj (hnext.symm.trans hexec)
    exact (holds_complete t' r).trans (holds_of_succeeds hsucceeds hresult)
  · obtain rfl := Host.Outcome.next.inj (hnext.symm.trans hexec)
    exact absurd hstatus (statusFailed_ne_zero c)

/-- Settles O41: the events in between keep the register, and the read shows what it holds; that is what the host's
write or the command left in it. -/
theorem readReturnsTheLatestWrite : Obligations.ReadReturnsTheLatestWrite := by
  unfold Obligations.ReadReturnsTheLatestWrite
  intro s t n r mid rest hreg hstep hpending hfree
  obtain ⟨u, hrun, hread, hfamily, hholds, hstored⟩ := sameRegister_of_free_run mid hpending hfree
  obtain ⟨hholds', hstored'⟩ := sameRegister_issue u rest r
  have hregU : regAt (u.issue rest).family n = some r := by rw [issue_family, hfamily, family_of_step hstep, hreg]
  have hvalue : t.holds r = true → ((u.issue rest).portData n).toNat = t.stored r := by
    intro hheld
    rw [portData_of_regAt hregU, data_of_holds (hholds'.trans (hholds.trans hheld)), hstored', hstored]
  refine ⟨u, _, _, hrun, step_read hread, rfl, rfl, hvalue, ?host, ?command⟩
  case host =>
    intro value tail hwrite hrw
    obtain ⟨hheld, hlow⟩ := register_after_write_step hwrite hreg hrw hstep
    rw [hvalue hheld, hlow]
  case command =>
    intro word tail i hwrite hdecode hresult hstatus
    have hexec : exec i (s.issue tail) = .next t :=
      (stepRunsTheDecodedCommand s word tail i hwrite hdecode).symm.trans hstep
    have hwf : i.WellFormed (s.issue tail).family := wellFormed_of_decode hdecode
    have hheld := holds_result_of_exec hwf hexec hresult hstatus
    exact ⟨hexec, hheld, hvalue hheld⟩

end Sys2Proof.Machine
end

section
/-! PROOFS. What the outcome of a command does not depend on: the STATUS before it (R166), and, where its operands hold
values, the position at which free values are drawn (R162). -/

namespace Sys2Proof.Machine

/-! ### The STATUS before -/

theorem exec_setStatus (i : Instr) (s : State) (v : BitVec 8) : exec i (s.setStatus v) = exec i s := by
  cases i <;> rfl

/-- Settles O35: the word decodes to the same, and neither a command nor an illegal word looks at STATUS. -/
theorem earlierStatusIsOverwritten : Obligations.EarlierStatusIsOverwritten := by
  unfold Obligations.EarlierStatusIsOverwritten
  intro w s v
  change runCommandWord w (s.setStatus v) = runCommandWord w s
  obtain ⟨i, hdecode, hrun⟩ | ⟨hillegal, hrun⟩ := runCommandWord_cases w s
  · have hdecode' : decode (s.setStatus v).family w = some i := hdecode
    rw [hrun, runCommandWord_of_decode hdecode', exec_setStatus]
  · have hillegal' : decode (s.setStatus v).family w = none := hillegal
    rw [hrun, runCommandWord_of_decode_eq_none hillegal']
    rfl

/-! ### The position -/

/-- `s` at another position of the host's program. -/
def State.atPosition (s : State) (k : Nat) : State := { s with port := { s.port with issued := k } }

/-- A register that holds a value shows it at every position. -/
theorem shown_eq_of_held {w : Nat} {reg : Register w} (h : reg.held = true) (name : Reg) (j k : Nat) :
    reg.shown name j = reg.shown name k := by
  rw [shown_of_held reg name j h, shown_of_held reg name k h]

theorem opA_atPosition {s : State} (h : s.holds .a = true) (k : Nat) : (s.atPosition k).opA = s.opA :=
  shown_eq_of_held h _ _ _

theorem opB_atPosition {s : State} (h : s.holds .b = true) (k : Nat) : (s.atPosition k).opB = s.opB :=
  shown_eq_of_held h _ _ _

theorem opX_atPosition {s : State} (h : s.holds .x = true) (k : Nat) : (s.atPosition k).opX = s.opX :=
  shown_eq_of_held h _ _ _

theorem opD_atPosition {s : State} (h : s.holds .d = true) (k : Nat) : (s.atPosition k).opD = s.opD :=
  shown_eq_of_held h _ _ _

theorem opFreq_atPosition {s : State} (h : s.holds .freq = true) (k : Nat) : (s.atPosition k).opFreq = s.opFreq :=
  shown_eq_of_held h _ _ _

theorem opXtal_atPosition {s : State} (h : s.holds .xtal = true) (k : Nat) : (s.atPosition k).opXtal = s.opXtal :=
  shown_eq_of_held h _ _ _

theorem opDcoMin_atPosition {s : State} (h : s.holds .dcoMin = true) (k : Nat) :
    (s.atPosition k).opDcoMin = s.opDcoMin :=
  shown_eq_of_held h _ _ _

theorem opDcoMax_atPosition {s : State} (h : s.holds .dcoMax = true) (k : Nat) :
    (s.atPosition k).opDcoMax = s.opDcoMax :=
  shown_eq_of_held h _ _ _

theorem opGrade_atPosition {s : State} (h : s.holds .grade = true) (k : Nat) : (s.atPosition k).opGrade = s.opGrade :=
  congrArg gradeOfCode (shown_eq_of_held h _ _ _)

theorem opS570N_atPosition {s : State} (h : s.holds .s570N = true) (k : Nat) : (s.atPosition k).opS570N = s.opS570N :=
  shown_eq_of_held h _ _ _

theorem opHsDiv_atPosition {s : State} (h : s.holds .s549HsDiv = true) (k : Nat) :
    (s.atPosition k).opHsDiv = s.opHsDiv :=
  shown_eq_of_held h _ _ _

theorem opLsDiv_atPosition {s : State} (h : s.holds .s549LsDiv = true) (k : Nat) :
    (s.atPosition k).opLsDiv = s.opLsDiv :=
  shown_eq_of_held h _ _ _

theorem runFind_atPosition {s : State} (h : OperandsHeld .s570find s) (k : Nat) :
    runFind (s.atPosition k) = (runFind s).atPosition k := by
  simp only [OperandsHeld, operandsOf, List.forall_mem_cons] at h
  obtain ⟨hfreq, hmin, hmax, hgrade, -⟩ := h
  have hoperands : (s.atPosition k).findOperands = s.findOperands := by
    simp only [State.findOperands, opFreq_atPosition hfreq, opDcoMin_atPosition hmin, opDcoMax_atPosition hmax,
      opGrade_atPosition hgrade]
  obtain ⟨hnone, hrun⟩ | ⟨sol, hfound, hrun⟩ := runFind_cases s
  · rw [hrun, runFind, hoperands, hnone]
    rfl
  · rw [hrun, runFind, hoperands, hfound]
    rfl

theorem runRfreq_atPosition {s : State} (h : OperandsHeld .s570rfreq s) (k : Nat) :
    runRfreq (s.atPosition k) = (runRfreq s).atPosition k := by
  simp only [OperandsHeld, operandsOf, List.forall_mem_cons] at h
  obtain ⟨hfreq, hn, hxtal, hmax, -⟩ := h
  simp only [runRfreq, opFreq_atPosition hfreq, opS570N_atPosition hn, opXtal_atPosition hxtal,
    opDcoMax_atPosition hmax]
  split <;> rfl

theorem runS549div_atPosition {s : State} (h : OperandsHeld .s549div s) (k : Nat) :
    runS549div (s.atPosition k) = (runS549div s).atPosition k := by
  simp only [OperandsHeld, operandsOf, List.forall_mem_cons] at h
  obtain ⟨hfreq, hmin, -⟩ := h
  rw [runS549div, opFreq_atPosition hfreq, opDcoMin_atPosition hmin]
  rfl

theorem runFbdiv_atPosition {s : State} (h : OperandsHeld .s549fbdiv s) (k : Nat) :
    runFbdiv (s.atPosition k) = (runFbdiv s).atPosition k := by
  simp only [OperandsHeld, operandsOf, List.forall_mem_cons] at h
  obtain ⟨hfreq, hhs, hls, hxtal, -⟩ := h
  rw [runFbdiv, opFreq_atPosition hfreq, opHsDiv_atPosition hhs, opLsDiv_atPosition hls, opXtal_atPosition hxtal]
  rfl

theorem onlyIn_atPosition {s : State} {k : Nat} {run : State → State}
    (hrun : run (s.atPosition k) = (run s).atPosition k) (fam : Family) :
    (s.atPosition k).onlyIn fam run = (s.onlyIn fam run).atPosition k := by
  have hfamily : (s.atPosition k).family = s.family := rfl
  simp only [State.onlyIn, hfamily]
  split
  · exact hrun
  · rfl

/-- With its operands held a command does the same at every position (R162). -/
theorem exec_atPosition {i : Instr} {s : State} (h : OperandsHeld i s) (k : Nat) :
    ∃ t, exec i s = .next t ∧ exec i (s.atPosition k) = .next (t.atPosition k) := by
  cases i with
  | mulw =>
    simp only [OperandsHeld, operandsOf, List.forall_mem_cons] at h
    obtain ⟨ha, hb, -⟩ := h
    refine ⟨_, exec_mulw s, ?_⟩
    rw [exec_mulw, opA_atPosition ha, opB_atPosition hb]
    rfl
  | divw f =>
    simp only [OperandsHeld, operandsOf, List.forall_mem_cons] at h
    obtain ⟨hx, hd, -⟩ := h
    refine ⟨_, exec_divw f s, ?_⟩
    rw [exec_divw, opX_atPosition hx, opD_atPosition hd]
    rfl
  | s570find => exact ⟨_, rfl, congrArg _ (onlyIn_atPosition (runFind_atPosition h k) .si570)⟩
  | s570rfreq => exact ⟨_, rfl, congrArg _ (onlyIn_atPosition (runRfreq_atPosition h k) .si570)⟩
  | s549div => exact ⟨_, rfl, congrArg _ (onlyIn_atPosition (runS549div_atPosition h k) .si549)⟩
  | s549fbdiv => exact ⟨_, rfl, congrArg _ (onlyIn_atPosition (runFbdiv_atPosition h k) .si549)⟩

/-- Settles O42: the state at another position is `State.atPosition`. -/
theorem bootedCommandsReadNoFreeValue : Obligations.BootedCommandsReadNoFreeValue := by
  unfold Obligations.BootedCommandsReadNoFreeValue
  exact fun i s k hheld => exec_atPosition hheld k

end Sys2Proof.Machine
end

section
/-! PROOFS. The assembler's lines (R68) and the constraints of the exclusion table (R6). -/

namespace Sys2Proof

/-- The shift stands at bits 9:4 of DIVW's word, above the opcode 2. -/
theorem toNat_encode_divw (f : BitVec 6) : (encode (.divw f)).toNat = 2 + 16 * f.toNat := by
  have happend : (encode (.divw f)).toNat = (0#6 ++ f).toNat <<< 4 ||| (2#4).toNat := BitVec.toNat_append _ _
  have hlow : (2#4).toNat < 2 ^ 4 := (2#4).isLt
  rw [happend, ← Nat.shiftLeft_add_eq_or_of_lt hlow, BitVec.toNat_append, Nat.shiftLeft_eq]
  simp
  omega

namespace Machine

/-- The command line of DIVW writes the word of DIVW f. -/
theorem divwLine_setWidth {f : Nat} (hf : f ≤ 63) :
    (BitVec.ofNat 48 (2 + 16 * f)).setWidth 16 = encode (.divw (BitVec.ofNat 6 f)) := by
  apply BitVec.eq_of_toNat_eq
  rw [toNat_encode_divw, BitVec.toNat_setWidth, BitVec.toNat_ofNat, BitVec.toNat_ofNat]
  omega

theorem assemble_divw {fam : Family} {f : Nat} (hf : f ≤ 63) :
    ∃ data, assemble fam (.divw f) = some (.write 0x00 data) ∧ data.toNat = 2 + 16 * f ∧
      decode fam (data.setWidth 16) = some (.divw (BitVec.ofNat 6 f)) := by
  refine ⟨BitVec.ofNat 48 (2 + 16 * f), if_pos hf, ?_, ?_⟩
  · rw [BitVec.toNat_ofNat]
    omega
  · rw [divwLine_setWidth hf]
    exact decode_encode (wellFormed_of_anyFamily rfl)

theorem assemble_wr {fam : Family} {r : Reg} (hpresent : r.presentIn fam = true) {value : Nat}
    (hvalue : value < 2 ^ 48) :
    ∃ data, assemble fam (.wr r value) = some (.write r.number data) ∧ data.toNat = value :=
  ⟨BitVec.ofNat 48 value, if_pos ⟨hpresent, hvalue⟩, by rw [BitVec.toNat_ofNat, Nat.mod_eq_of_lt hvalue]⟩

/-- Settles O43: the tests of each line are those of the table. -/
theorem assemblerLines : Obligations.AssemblerLines := by
  unfold Obligations.AssemblerLines
  refine ⟨fun fam => ⟨rfl, rfl, rfl, rfl, rfl⟩, fun fam f => ⟨assemble_divw, fun hf => if_neg (by omega)⟩,
    fun fam r => ⟨fun habsent => ?absent, fun hpresent => ?present⟩⟩
  case absent =>
    have hnot : ¬ r.presentIn fam = true := by rw [habsent]; exact Bool.false_ne_true
    exact ⟨if_neg hnot, fun value => if_neg fun ⟨hpresent, _⟩ => hnot hpresent⟩
  case present =>
    exact ⟨if_pos hpresent, regAt_number_of_present hpresent,
      fun value => ⟨assemble_wr hpresent, fun hvalue => if_neg fun ⟨_, hlow⟩ => absurd hlow (by omega)⟩⟩

end Machine

namespace Config

/-- (1, 4) is on the table's list of grade C already, so `excl` adds nothing to it. -/
theorem excl_c : excl .c = builtTable.gradeC := by
  funext n1 hs
  by_cases hpair : n1 = 1 ∧ hs = 4
  · obtain ⟨rfl, rfl⟩ := hpair
    exact builtTable.c_excludes_1_4.symm
  · have hnot : (n1 == 1 && hs == 4) = false := by simpa using hpair
    rw [excl, hnot, Bool.false_or]

/-- Settles O17: the constraints are the fields of the table's type. -/
theorem exclusionListsAreNested : Obligations.ExclusionListsAreNested := by
  unfold Obligations.ExclusionListsAreNested
  rw [excl_c]
  exact ⟨fun _ _ => rfl, ⟨builtTable.a_in_b, builtTable.b_in_c⟩, ⟨builtTable.a_in_d, builtTable.d_in_c⟩,
    builtTable.b_d_nested, builtTable.c_excludes_1_4⟩

end Config
end Sys2Proof
end

section
/-! PROOFS. S570FIND as a command: what it stores and when it fails, over the valid pairs of R103. -/

namespace Sys2Proof.Machine

theorem raiseFail_noDiv_eq (s : State) : s.raiseFail .noDiv = { s with status := 0x05 } := by
  rw [State.raiseFail, statusFailed_noDiv]
  rfl

theorem raiseFail_dcoHi_eq (s : State) : s.raiseFail .dcoHi = { s with status := 0x09 } := by
  rw [State.raiseFail, statusFailed_dcoHi]
  rfl

/-! ### The two outcomes -/

theorem exec_find_of_no_pair {s : State} (hfam : s.family = .si570) (hnone : ∀ hs n, ¬ ValidPair s.findOperands hs n) :
    exec .s570find s = .next { s with status := 0x05 } := by
  have hfind := (findDivider_eq_none_iff _).2 hnone
  rw [exec_s570find s hfam, runFind, hfind, raiseFail_noDiv_eq]

theorem exec_find_of_found {s : State} (hfam : s.family = .si570) {sol : Solution}
    (hfound : findDivider s.findOperands = some sol) :
    exec .s570find s = .next (s.writePair sol.hsDiv sol.n1).complete := by
  rw [exec_s570find s hfam, runFind, hfound]
  rfl

/-- A successful search has found a valid pair, and stores it. -/
theorem found_of_exec_find {s t : State} (hfam : s.family = .si570) (hexec : exec .s570find s = .next t)
    (hstatus : t.status = 0x00) :
    ∃ sol, findDivider s.findOperands = some sol ∧ t = (s.writePair sol.hsDiv sol.n1).complete := by
  cases hfind : findDivider s.findOperands with
  | none =>
    rw [exec_find_of_no_pair hfam ((findDivider_eq_none_iff _).1 hfind)] at hexec
    obtain rfl := Host.Outcome.next.inj hexec
    exact absurd hstatus (by decide : (0x05#8) ≠ 0x00)
  | some sol =>
    rw [exec_find_of_found hfam hfind] at hexec
    exact ⟨sol, rfl, (Host.Outcome.next.inj hexec).symm⟩

/-- Settles O19: the search fails where no pair is valid, and else stores the best valid pair whole. -/
theorem findStoresTheBestValidPair : Obligations.FindStoresTheBestValidPair := by
  unfold Obligations.FindStoresTheBestValidPair
  refine ⟨fun s hfam => ⟨exec_find_of_no_pair hfam, ?success⟩, decode_of_encode_eq rfl (by decide)⟩
  rintro ⟨hs, n, hvalid⟩
  obtain ⟨sol, hfound⟩ := findDivider_isSome_of_validPair hvalid
  have hpair := validPair_of_findDivider hfound
  obtain ⟨hhs, hn1, hn⟩ := writePair_toNat s hpair
  exact ⟨_, sol.hsDiv, sol.n1, exec_find_of_found hfam hfound, hpair,
    fun hs' n' hvalid' => noWorse_of_findDivider hfound hvalid', ⟨rfl, hhs⟩, ⟨rfl, hn1⟩, ⟨rfl, hn⟩, statusDone_eq, rfl⟩

/-! ### Corner cases of R104 -/

theorem exec_find_of_validPair {s : State} (hfam : s.family = .si570) {hs n : Nat}
    (hvalid : ValidPair s.findOperands hs n) : ∃ t, exec .s570find s = .next t ∧ t.status = 0x00 := by
  obtain ⟨sol, hfound⟩ := findDivider_isSome_of_validPair hvalid
  exact ⟨_, exec_find_of_found hfam hfound, statusDone_eq⟩

/-- The DCO of a valid pair, FREQ times its product, lies within the limits. -/
theorem dco_bounds_of_validPair {o : FindOperands} {hs n : Nat} (h : ValidPair o hs n) :
    mhz o.dcoMin ≤ o.freq.toNat * (n * hs) ∧ o.freq.toNat * (n * hs) ≤ mhz o.dcoMax := by
  obtain ⟨-, -, hreach⟩ := reaches_of_validPair h
  obtain ⟨-, -, -, hmax, -⟩ := h
  rw [← Nat.mul_assoc]
  exact ⟨hreach, hmax⟩

/-- The product of a valid pair, 4 to 1408, bounds its DCO from both sides. -/
theorem dco_product_bounds {o : FindOperands} {hs n : Nat} (h : ValidPair o hs n) :
    o.freq.toNat * 4 ≤ o.freq.toNat * (n * hs) ∧ o.freq.toNat * (n * hs) ≤ o.freq.toNat * 1408 := by
  obtain ⟨hlegal, -⟩ := id h
  obtain ⟨hlow, hhigh⟩ := legal_product_bounds hlegal (legalN1_of_validPair h)
  exact ⟨Nat.mul_le_mul_left _ hlow, Nat.mul_le_mul_left _ hhigh⟩

/-- Settles O20: each condition contradicts the bounds that a valid pair would meet. -/
theorem findFailsOutOfReach : Obligations.FindFailsOutOfReach := by
  unfold Obligations.FindFailsOutOfReach
  intro s hfam hcase
  refine exec_find_of_no_pair hfam fun hs n hvalid => ?_
  have hfreq : s.opFreq ≠ 0 := freq_ne_zero_of_validPair hvalid
  obtain ⟨hreach, hmax⟩ : s.opDcoMin.toNat * 2 ^ 21 ≤ s.opFreq.toNat * (n * hs) ∧
    s.opFreq.toNat * (n * hs) ≤ s.opDcoMax.toNat * 2 ^ 21 := dco_bounds_of_validPair hvalid
  obtain ⟨hfour, htop⟩ : s.opFreq.toNat * 4 ≤ s.opFreq.toNat * (n * hs) ∧
    s.opFreq.toNat * (n * hs) ≤ s.opFreq.toNat * 1408 := dco_product_bounds hvalid
  obtain hzero | hswapped | hbelow | habove := hcase
  · exact hfreq hzero
  all_goals omega

/-- With no lower limit every candidate is 1. -/
theorem cand_dcoMin_zero {freq : BitVec 32} (hfreq : freq ≠ 0) {hs : Nat} (hhs : Config.LegalHsDiv hs) :
    cand freq 0 hs = some 1 := by
  obtain ⟨n, hcand, ⟨hone, -⟩, hleast⟩ := cand_isLeast hfreq (legalHsDiv_pos hhs) 0
  rw [hcand, le_antisymm (hleast (one_mem_reachingN1s_zero freq hs)) hone]

/-- No product is below that of (1, 4), so with N1 = 1 a product of at most 4 means HS_DIV = 4. -/
theorem hsDiv_eq_four_of_product_le {sol : Solution} (hhs : Config.LegalHsDiv sol.hsDiv) (hn1 : sol.n1 = 1)
    (hproduct : sol.product ≤ 4) : sol.hsDiv = 4 := by
  rw [Solution.product, hn1, Nat.one_mul] at hproduct
  obtain ⟨hfour, -⟩ := legalHsDiv_bounds hhs
  exact le_antisymm hproduct hfour

/-- Settles O21: every candidate is 1, so no pair beats (1, 4). -/
theorem findWithoutLowerLimitChoosesOneFour : Obligations.FindWithoutLowerLimitChoosesOneFour := by
  unfold Obligations.FindWithoutLowerLimitChoosesOneFour
  intro s hfam hmin hfreq hmax hexcl
  have hcand : ∀ {hs}, Config.LegalHsDiv hs → cand s.opFreq s.opDcoMin hs = some 1 := fun hhs => by
    rw [hmin]
    exact cand_dcoMin_zero hfreq hhs
  have hfour : Config.LegalHsDiv 4 := by decide
  have hvalid : ValidPair s.findOperands 4 1 :=
    ⟨hfour, hcand hfour, by decide, by rw [Nat.mul_one]; exact hmax, hexcl⟩
  obtain ⟨sol, hfound⟩ := findDivider_isSome_of_validPair hvalid
  have hpair := validPair_of_findDivider hfound
  obtain ⟨hhs, hcandSol, -⟩ := id hpair
  have hn1 : sol.n1 = 1 := Option.some.inj (hcandSol.symm.trans (hcand hhs))
  have hproduct : sol.product ≤ 4 := by
    obtain hless | ⟨htie, -⟩ := noWorse_of_findDivider hfound hvalid
    · exact hless.le
    · exact htie.le
  have hhs4 := hsDiv_eq_four_of_product_le hhs hn1 hproduct
  refine ⟨_, exec_find_of_found hfam hfound, statusDone_eq, ?_⟩
  rw [hhs4, hn1]
  exact ⟨rfl, rfl, rfl⟩

/-! ### The grades -/

theorem excl_c_one_four : Config.excl .c 1 4 = true := rfl

/-- Settles O22: what a success stores is a valid pair, which is not excluded, while (1, 4) is (R6 c). -/
theorem gradeCNeverGetsOneFour : Obligations.GradeCNeverGetsOneFour := by
  unfold Obligations.GradeCNeverGetsOneFour
  intro s hfam hgrade
  refine ⟨_, exec_s570find s hfam, fun hstatus => ?_⟩
  rintro ⟨hn1, hhs⟩
  obtain ⟨sol, hfound, heq⟩ := found_of_exec_find hfam (exec_s570find s hfam) hstatus
  have hpair := validPair_of_findDivider hfound
  obtain ⟨hhsNat, hn1Nat, -⟩ := writePair_toNat s hpair
  rw [heq] at hn1 hhs
  have hn1One : sol.n1 = 1 := hn1Nat.symm.trans (congrArg BitVec.toNat hn1)
  have hhsFour : sol.hsDiv = 4 := hhsNat.symm.trans (congrArg BitVec.toNat hhs)
  obtain ⟨-, -, -, -, hallowed⟩ := hpair
  have hgradeC : s.findOperands.grade = .c := hgrade
  rw [hgradeC, hn1One, hhsFour] at hallowed
  exact Bool.false_ne_true (hallowed.symm.trans excl_c_one_four)

/-- Settles O23: for grade A the candidate in range is a valid pair. -/
theorem gradeATakesNoExclusionTest : Obligations.GradeATakesNoExclusionTest := by
  unfold Obligations.GradeATakesNoExclusionTest
  refine ⟨fun _ _ => rfl, fun s hs n hfam hgrade hhs hcand hn hmax => ?_⟩
  have hallowed : Config.excl s.opGrade n hs = false := by rw [hgrade]; rfl
  have hvalid : ValidPair s.findOperands hs n := ⟨hhs, hcand, hn, hmax, hallowed⟩
  exact exec_find_of_validPair hfam hvalid

/-! ### What the search reads -/

/-- Settles O24: the search is run on `State.findOperands` alone. -/
theorem findReadsOnlyItsOperands : Obligations.FindReadsOnlyItsOperands := by
  unfold Obligations.FindReadsOnlyItsOperands
  intro s u hfamS hfamU hfreq hmin hmax hgrade
  have hoperands : s.findOperands = u.findOperands := by
    simp only [State.findOperands, hfreq, hmin, hmax, hgrade]
  cases hfind : findDivider u.findOperands with
  | none =>
    have hnone := (findDivider_eq_none_iff _).1 hfind
    exact ⟨_, _, exec_find_of_no_pair hfamS (hoperands ▸ hnone), exec_find_of_no_pair hfamU hnone, rfl,
      fun hdone => absurd hdone (by decide : (0x05#8) ≠ 0x00)⟩
  | some sol =>
    exact ⟨_, _, exec_find_of_found hfamS (hoperands ▸ hfind), exec_find_of_found hfamU hfind, rfl,
      fun _ => ⟨rfl, rfl, rfl⟩⟩

end Sys2Proof.Machine
end

section
/-! PROOFS. The domain of the wide divide over exact integers, and the three commands that divide or multiply: MULW,
DIVW and S570RFREQ. -/

namespace Sys2Proof.Machine

/-! ### The domain of the divide -/

theorem toNat_pos_of_ne_zero {w : Nat} {d : BitVec w} (hd : d ≠ 0) : 0 < d.toNat :=
  Nat.pos_of_ne_zero (BitVec.toNat_ne_iff_ne.2 hd)

/-- R82 without the quotient: the dividend is below 2^48 times the divisor. -/
theorem divwDomain_iff (x : BitVec 48) (d : BitVec 32) (f : BitVec 6) :
    DivwDomain x d f ↔ d ≠ 0 ∧ x.toNat * 2 ^ f.toNat < d.toNat * 2 ^ 48 := by
  refine and_congr_right fun hd => ?_
  rw [wideQuotient, Nat.div_lt_iff_lt_mul (toNat_pos_of_ne_zero hd), Nat.mul_comm (2 ^ 48)]

theorem divwTotal_eq_ood {x : BitVec 48} {d : BitVec 32} {f : BitVec 6} (hout : ¬ DivwDomain x d f) :
    divwTotal x d f = Config.divwOod x d f :=
  if_neg hout

/-- R83's sufficient condition. -/
theorem divwDomain_of_small {x : BitVec 48} {d : BitVec 32} {f : BitVec 6} (hd : d ≠ 0)
    (hx : x.toNat < 2 ^ (48 - f.toNat)) : DivwDomain x d f := by
  refine (divwDomain_iff x d f).2 ⟨hd, ?_⟩
  have hdividend : x.toNat * 2 ^ f.toNat < 2 ^ 48 := by
    obtain hf | hf := Nat.le_total f.toNat 48
    · calc x.toNat * 2 ^ f.toNat < 2 ^ (48 - f.toNat) * 2 ^ f.toNat :=
            (Nat.mul_lt_mul_right (Nat.two_pow_pos _)).2 hx
        _ = 2 ^ 48 := by rw [← Nat.pow_add, Nat.sub_add_cancel hf]
    · rw [Nat.sub_eq_zero_of_le hf] at hx
      rw [Nat.lt_one_iff.1 hx, Nat.zero_mul]
      exact Nat.two_pow_pos 48
  exact hdividend.trans_le (Nat.le_mul_of_pos_left _ (toNat_pos_of_ne_zero hd))

/-! ### MULW and DIVW -/

/-- Settles O12: the product fits 48 bits. -/
theorem mulwWritesTheExactProduct : Obligations.MulwWritesTheExactProduct := by
  unfold Obligations.MulwWritesTheExactProduct
  exact ⟨fun s => ⟨_, exec_mulw s, rfl, mulw_toNat s.opA s.opB, statusDone_eq, rfl⟩,
    fun fam => decode_of_encode_eq rfl (wellFormed_of_anyFamily rfl)⟩

/-- Settles O13: the total divide gives the floor quotient in the domain and the unspecified value outside it. -/
theorem divwWritesTheFloorQuotient : Obligations.DivwWritesTheFloorQuotient := by
  unfold Obligations.DivwWritesTheFloorQuotient
  refine ⟨fun f s => ⟨_, exec_divw f s, rfl, statusDone_eq, rfl, ?inside, ?outside⟩, fun fam f => ?word,
    fun x d f => divwDomain_of_small⟩
  case word =>
    rw [divwWord_eq_encode]
    exact decode_encode (wellFormed_of_anyFamily rfl)
  case inside =>
    rintro ⟨hd, hfits⟩
    have hdom := (divwDomain_iff s.opX s.opD f).2 ⟨BitVec.toNat_ne_iff_ne.1 hd, hfits⟩
    simp only [complete_wide, writeQ_wide, holding_word, divwTotal_toNat hdom]
    exact ⟨Nat.div_mul_le_self _ _, Nat.lt_mul_of_div_lt (Nat.lt_succ_self _) (Nat.pos_of_ne_zero hd)⟩
  case outside =>
    intro hout
    refine divwTotal_eq_ood fun hdom => hout ?_
    obtain ⟨hd, hfits⟩ := (divwDomain_iff s.opX s.opD f).1 hdom
    exact ⟨BitVec.toNat_ne_iff_ne.2 hd, hfits⟩

/-! ### S570RFREQ -/

theorem exec_rfreq_of_high {s : State} (hfam : s.family = .si570)
    (hhigh : s.opFreq.toNat * s.opS570N.toNat > mhz s.opDcoMax) :
    exec .s570rfreq s = .next { s with status := 0x09 } := by
  rw [← mulw_toNat] at hhigh
  obtain ⟨-, hrun⟩ | ⟨hlow, -⟩ := runRfreq_cases s
  · rw [exec_s570rfreq s hfam, hrun, raiseFail_dcoHi_eq]
  · exact absurd hlow (Nat.not_le.2 hhigh)

theorem exec_rfreq_of_low {s : State} (hfam : s.family = .si570)
    (hlow : s.opFreq.toNat * s.opS570N.toNat ≤ mhz s.opDcoMax) :
    exec .s570rfreq s =
      .next (s.writeRfreq ((divwTotal (mulw s.opFreq s.opS570N) s.opXtal 31#6).setWidth 38)).complete := by
  rw [← mulw_toNat] at hlow
  obtain ⟨hhigh, -⟩ | ⟨-, hrun⟩ := runRfreq_cases s
  · exact absurd hlow (Nat.not_le.2 hhigh)
  · rw [exec_s570rfreq s hfam, hrun]

/-- The low bits of a quotient in the domain, for a result register of `w` bits. -/
theorem divwTotal_setWidth_toNat {x : BitVec 48} {d : BitVec 32} {f : BitVec 6} (hdom : DivwDomain x d f) (w : Nat) :
    ((divwTotal x d f).setWidth w).toNat = x.toNat * 2 ^ f.toNat / d.toNat % 2 ^ w := by
  rw [BitVec.toNat_setWidth, divwTotal_toNat hdom, wideQuotient]

/-- Settles O25: the two sides of the DCO test, and the two sides of the domain of the divide. -/
theorem rfreqStoresTheRatioOrFails : Obligations.RfreqStoresTheRatioOrFails := by
  unfold Obligations.RfreqStoresTheRatioOrFails
  refine ⟨fun s hfam => ⟨exec_rfreq_of_high hfam, fun hlow => ⟨_, exec_rfreq_of_low hfam hlow, rfl, statusDone_eq, rfl,
    ?inside, ?outside⟩⟩, decode_of_encode_eq rfl (by decide)⟩
  all_goals
    have hdomain := divwDomain_iff (mulw s.opFreq s.opS570N) s.opXtal 31#6
    rw [mulw_toNat] at hdomain
  case inside =>
    intro hin
    have hquotient := divwTotal_setWidth_toNat (hdomain.2 hin) 38
    rwa [mulw_toNat] at hquotient
  case outside =>
    intro hout
    exact congrArg (BitVec.setWidth 38) (divwTotal_eq_ood (mt hdomain.1 hout))

/-- Settles O26: DCOMAX bounds the dividend by 2^68, which a crystal above 2^20 takes into the domain. -/
theorem crystalAboveASixteenthIsInDomain : Obligations.CrystalAboveASixteenthIsInDomain := by
  unfold Obligations.CrystalAboveASixteenthIsInDomain
  intro s hlow hxtal
  have hmax := s.opDcoMax.isLt
  have hxtalPos : s.opXtal ≠ 0 := BitVec.toNat_ne_iff_ne.1 (Nat.ne_of_gt ((Nat.two_pow_pos 20).trans hxtal))
  refine (divwDomain_iff _ _ _).2 ⟨hxtalPos, ?_⟩
  rw [mulw_toNat]
  change s.opFreq.toNat * s.opS570N.toNat * 2 ^ 31 < s.opXtal.toNat * 2 ^ 48
  omega

/-- Settles O27: the DCO of a valid pair lies within its limits, so the DCO test of S570RFREQ passes. -/
theorem freshSolutionNeverExceedsDcoMax : Obligations.FreshSolutionNeverExceedsDcoMax := by
  unfold Obligations.FreshSolutionNeverExceedsDcoMax
  intro s t hfam hexec hstatus
  obtain ⟨sol, hfound, rfl⟩ := found_of_exec_find hfam hexec hstatus
  have hpair := validPair_of_findDivider hfound
  obtain ⟨hlegal, -⟩ := id hpair
  obtain ⟨-, -, hn⟩ := writePair_toNat s hpair
  obtain ⟨hreach, hmax⟩ := dco_bounds_of_validPair hpair
  rw [complete_s570, hn]
  refine ⟨⟨hreach, legal_product_bounds hlegal (legalN1_of_validPair hpair)⟩, fun u hfamU hfreq hdcoMax hsame => ?_⟩
  have hproduct : u.opS570N.toNat = sol.n1 * sol.hsDiv := by
    rw [← hn, State.opS570N, hsame]
    rfl
  have hlow : u.opFreq.toNat * u.opS570N.toNat ≤ mhz u.opDcoMax := by
    rw [hproduct, hfreq, hdcoMax]
    exact hmax
  exact ⟨_, exec_rfreq_of_low hfamU hlow, statusDone_eq⟩

end Sys2Proof.Machine
end

section
/-! PROOFS. STATUS after a write to CMD, value by value (R141, R142). -/

namespace Sys2Proof.Machine

theorem commandRun_status {w : CommandWord} {s t : State} (h : CommandRun w s t) : StatusLegal t := by
  cases h with
  | succeeded => exact .inl statusDone_eq
  | failed i c _ hfails =>
    cases hfails with
    | noDiv => exact .inr (.inr (.inl statusFailed_noDiv))
    | dcoHi => exact .inr (.inr (.inr statusFailed_dcoHi))
  | illegal => exact .inr (.inl statusIllegal_eq)

theorem commandRun_illegal_iff {w : CommandWord} {s t : State} (h : CommandRun w s t) :
    t.status = 0x02 ↔ decode s.family w = none := by
  cases h with
  | succeeded i t hdecode => exact iff_of_false (by decide : statusDone ≠ 0x02) (by simp [hdecode])
  | failed i c hdecode =>
    have hstatus : statusFailed c ≠ 0x02 := by cases c <;> decide
    exact iff_of_false hstatus (by simp [hdecode])
  | illegal hillegal => exact iff_of_true statusIllegal_eq hillegal

theorem commandRun_noDiv_iff {w : CommandWord} {s t : State} (h : CommandRun w s t) :
    t.status = 0x05 ↔ decode s.family w = some .s570find ∧ findDivider s.findOperands = none := by
  cases h with
  | succeeded i t hdecode hsucceeds =>
    refine iff_of_false (by decide : statusDone ≠ 0x05) ?_
    rintro ⟨hfind, hnone⟩
    obtain rfl := Option.some.inj (hdecode.symm.trans hfind)
    cases hsucceeds with
    | s570find sol hfound => exact nomatch hfound.symm.trans hnone
  | failed i c hdecode hfails =>
    cases hfails with
    | noDiv hnone => exact iff_of_true statusFailed_noDiv ⟨hdecode, hnone⟩
    | dcoHi => exact iff_of_false (by decide : statusFailed .dcoHi ≠ 0x05) (by simp [hdecode])
  | illegal hillegal => exact iff_of_false (by decide : statusIllegal ≠ 0x05) (by simp [hillegal])

theorem commandRun_dcoHi_iff {w : CommandWord} {s t : State} (h : CommandRun w s t) :
    t.status = 0x09 ↔
      decode s.family w = some .s570rfreq ∧ (mulw s.opFreq s.opS570N).toNat > mhz s.opDcoMax := by
  cases h with
  | succeeded i t hdecode hsucceeds =>
    refine iff_of_false (by decide : statusDone ≠ 0x09) ?_
    rintro ⟨hrfreq, hhigh⟩
    obtain rfl := Option.some.inj (hdecode.symm.trans hrfreq)
    cases hsucceeds with
    | s570rfreq hlow => exact Nat.not_le.2 hhigh hlow
  | failed i c hdecode hfails =>
    cases hfails with
    | noDiv => exact iff_of_false (by decide : statusFailed .noDiv ≠ 0x09) (by simp [hdecode])
    | dcoHi hhigh => exact iff_of_true statusFailed_dcoHi ⟨hdecode, hhigh⟩
  | illegal hillegal => exact iff_of_false (by decide : statusIllegal ≠ 0x09) (by simp [hillegal])

/-- A failure changes STATUS alone. -/
theorem eq_setStatus_of_failure {w : CommandWord} {s t : State} (h : CommandRun w s t)
    (hfail : t.status = 0x05 ∨ t.status = 0x09) : t = { s with status := t.status } := by
  cases h with
  | succeeded i t =>
    have hstatus : ¬ (statusDone = 0x05 ∨ statusDone = 0x09) := by decide
    exact absurd hfail hstatus
  | failed | illegal => rfl

/-- Settles O32: each value of STATUS belongs to one of the outcomes of a write to CMD. -/
theorem abnormalOutcomesExactly : Obligations.AbnormalOutcomesExactly := by
  unfold Obligations.AbnormalOutcomesExactly
  intro w s
  obtain ⟨t, hnext, hrun⟩ := runCommandWord_completes w s
  refine ⟨t, hnext, ?noDiv, ?dcoHi, commandRun_illegal_iff hrun, commandRun_status hrun, eq_setStatus_of_failure hrun⟩
  case noDiv => rw [commandRun_noDiv_iff hrun, findDivider_eq_none_iff]
  case dcoHi =>
    rw [commandRun_dcoHi_iff hrun, mulw_toNat]
    rfl

end Sys2Proof.Machine
end

section
/-! PROOFS. The Si549 commands: the total divider as a least number, how it is split into HSDIV and LSDIV (R121 to
R124), and the feedback divider (R125, R126). -/

namespace Sys2Proof.Machine

/-! ### The total divider -/

theorem s549Den_eq (freq : BitVec 32) : s549Den freq = freq.toNat / 2 ^ 18 := by
  rw [s549Den, BitVec.extractLsb'_toNat, Nat.shiftRight_eq_div_pow]
  have hfreq := freq.isLt
  omega

theorem s549Den_pos {freq : BitVec 32} (h : 0x00040000 ≤ freq.toNat) : 0 < s549Den freq := by
  rw [s549Den_eq]
  omega

theorem s549Den_zero {freq : BitVec 32} (h : freq.toNat < 0x00040000) : s549Den freq = 0 := by
  rw [s549Den_eq]
  omega

/-- R121: the total divider is the least number that takes the truncated target up to DCOMIN. -/
theorem totalDivider_le_iff {freq : BitVec 32} (hfreq : 0x00040000 ≤ freq.toNat) (dcoMin : BitVec 16) (k : Nat) :
    totalDivider freq dcoMin ≤ k ↔ dcoMin.toNat * 8 ≤ k * (freq.toNat / 2 ^ 18) := by
  rw [totalDivider, ceilDiv_le_iff _ _ _ (s549Den_pos hfreq), s549Num, s549Den_eq]
  rfl

theorem totalDivider_le {freq : BitVec 32} (hfreq : 0x00040000 ≤ freq.toNat) (dcoMin : BitVec 16) :
    totalDivider freq dcoMin ≤ 524280 := by
  rw [totalDivider_le_iff hfreq]
  have hmin := dcoMin.isLt
  omega

/-! ### The split into HSDIV and LSDIV -/

theorem lsDivOf_of_lt {t : Nat} (ht : t < 2046) : lsDivOf t = 0 :=
  if_pos ht

/-- R123: LSDIV is the largest `k ≤ 5` with `2046 · 2^k ≤ t`. -/
theorem le_lsDivOf_iff {t : Nat} (ht : 2046 ≤ t) (k : Nat) : k ≤ lsDivOf t ↔ k ≤ 5 ∧ 2046 * 2 ^ k ≤ t := by
  have hquotient : t / 2046 ≠ 0 := by omega
  rw [lsDivOf, if_neg (Nat.not_lt.2 ht), Nat.le_min, Nat.le_log2 hquotient, Nat.le_div_iff_mul_le (by decide),
    Nat.mul_comm]

theorem lsDivOf_le_five (t : Nat) : lsDivOf t ≤ 5 := by
  obtain hlt | hge := Nat.lt_or_ge t 2046
  · rw [lsDivOf_of_lt hlt]
    exact Nat.zero_le 5
  · exact ((le_lsDivOf_iff hge _).1 le_rfl).1

theorem le_of_lsDivOf_pos {t : Nat} (hls : 1 ≤ lsDivOf t) : 2046 * 2 ^ lsDivOf t ≤ t := by
  obtain hlt | hge := Nat.lt_or_ge t 2046
  · rw [lsDivOf_of_lt hlt] at hls
    omega
  · exact ((le_lsDivOf_iff hge _).1 le_rfl).2

/-- Below 5, LSDIV + 1 would be too large. -/
theorem lt_of_lsDivOf_le_four {t : Nat} (hls : lsDivOf t ≤ 4) : t < 2046 * 2 ^ (lsDivOf t + 1) := by
  obtain hlt | hge := Nat.lt_or_ge t 2046
  · exact hlt.trans_le (Nat.le_mul_of_pos_right _ (Nat.two_pow_pos _))
  · by_contra hnot
    exact Nat.not_succ_le_self _ ((le_lsDivOf_iff hge _).2 ⟨by omega, Nat.not_lt.1 hnot⟩)

/-- HSDIV is the divider shifted right, rounded up to an even number where LSDIV is 0 (R123). -/
theorem hsDivOf_eq (t : Nat) :
    hsDivOf t = t / 2 ^ lsDivOf t + (if lsDivOf t = 0 ∧ 34 ≤ t ∧ t % 2 = 1 then 1 else 0) := by
  unfold hsDivOf
  obtain hzero | hpos := Nat.eq_zero_or_pos (lsDivOf t)
  · simp only [hzero, pow_zero, Nat.div_one, true_and, ge_iff_le]
    split <;> rfl
  · simp [Nat.ne_of_gt hpos]

/-- The two dividers by the value of LSDIV. -/
theorem split_cases (t : Nat) :
    (lsDivOf t = 0 ∧ t < 4092 ∧ hsDivOf t = t + (if 34 ≤ t ∧ t % 2 = 1 then 1 else 0)) ∨
    ((1 ≤ lsDivOf t ∧ lsDivOf t ≤ 4) ∧ 2046 * 2 ^ lsDivOf t ≤ t ∧ t < 4092 * 2 ^ lsDivOf t ∧
      hsDivOf t = t / 2 ^ lsDivOf t) ∨
    (lsDivOf t = 5 ∧ 65472 ≤ t ∧ hsDivOf t = t / 32) := by
  have hfive := lsDivOf_le_five t
  have hhs := hsDivOf_eq t
  obtain hzero | ⟨hone, hfour⟩ | htop : lsDivOf t = 0 ∨ (1 ≤ lsDivOf t ∧ lsDivOf t ≤ 4) ∨ lsDivOf t = 5 := by omega
  · have hlt := lt_of_lsDivOf_le_four (t := t) (by omega)
    rw [hzero] at hlt
    simp only [hzero, pow_zero, Nat.div_one, true_and] at hhs
    exact .inl ⟨hzero, hlt, hhs⟩
  · have hlt := lt_of_lsDivOf_le_four hfour
    rw [pow_succ, Nat.mul_comm _ 2, ← Nat.mul_assoc] at hlt
    rw [if_neg (by omega), Nat.add_zero] at hhs
    exact .inr (.inl ⟨⟨hone, hfour⟩, le_of_lsDivOf_pos hone, hlt, hhs⟩)
  · have hle := le_of_lsDivOf_pos (t := t) (by omega)
    rw [htop] at hle
    rw [if_neg (by omega), htop, Nat.add_zero] at hhs
    exact .inr (.inr ⟨htop, hle, hhs⟩)

/-- With LSDIV 1 to 4, HSDIV is the 2046 to 4091 that R124 gives. -/
theorem hsDiv_mid_bounds {t ls : Nat} (hlow : 2046 * 2 ^ ls ≤ t) (hhigh : t < 4092 * 2 ^ ls) :
    2046 ≤ t / 2 ^ ls ∧ t / 2 ^ ls ≤ 4091 := by
  rw [Nat.le_div_iff_mul_le (Nat.two_pow_pos ls)]
  exact ⟨hlow, Nat.le_of_lt_succ ((Nat.div_lt_iff_lt_mul (Nat.two_pow_pos ls)).2 hhigh)⟩

theorem hsDivOf_le {t : Nat} (ht : t ≤ 524280) : hsDivOf t ≤ 16383 := by
  obtain ⟨-, hlt, hhs⟩ | ⟨-, hlow, hhigh, hhs⟩ | ⟨-, -, hhs⟩ := split_cases t
  · rw [hhs]
    split <;> omega
  · obtain ⟨-, hle⟩ := hsDiv_mid_bounds hlow hhigh
    omega
  · omega

/-! ### S549DIV -/

theorem exec_s549div_eq {s : State} (hfam : s.family = .si549) :
    exec .s549div s = .next
      (s.writeS549Dividers (s549Dividers s.opFreq s.opDcoMin).1 (s549Dividers s.opFreq s.opDcoMin).2).complete :=
  exec_s549div s hfam

theorem s549Dividers_of_low {freq : BitVec 32} (hfreq : freq.toNat < 0x00040000) (dcoMin : BitVec 16) :
    s549Dividers freq dcoMin = Config.s549DivOod freq dcoMin :=
  if_pos (s549Den_zero hfreq)

/-- In the domain both dividers fit their registers. -/
theorem s549Dividers_toNat {freq : BitVec 32} (hfreq : 0x00040000 ≤ freq.toNat) (dcoMin : BitVec 16) :
    (s549Dividers freq dcoMin).1.toNat = hsDivOf (totalDivider freq dcoMin) ∧
    (s549Dividers freq dcoMin).2.toNat = lsDivOf (totalDivider freq dcoMin) := by
  have hhs := hsDivOf_le (totalDivider_le hfreq dcoMin)
  have hls := lsDivOf_le_five (totalDivider freq dcoMin)
  rw [s549Dividers, if_neg (Nat.ne_of_gt (s549Den_pos hfreq)), BitVec.toNat_ofNat, BitVec.toNat_ofNat]
  exact ⟨Nat.mod_eq_of_lt (by omega), Nat.mod_eq_of_lt (by omega)⟩

/-- Settles O28: the two sides of the domain, the least number of R121 and the largest exponent of R123. -/
theorem s549DivSplitsTheTotalDivider : Obligations.S549DivSplitsTheTotalDivider := by
  unfold Obligations.S549DivSplitsTheTotalDivider
  refine ⟨fun s hfam => ⟨_, exec_s549div_eq hfam, rfl, rfl, statusDone_eq, rfl,
    fun hlow => s549Dividers_of_low hlow s.opDcoMin, fun hfreq => ?_⟩, decode_of_encode_eq rfl (by decide)⟩
  have hle_iff := totalDivider_le_iff hfreq s.opDcoMin
  obtain ⟨hhs, hls⟩ := s549Dividers_toNat hfreq s.opDcoMin
  refine ⟨totalDivider s.opFreq s.opDcoMin, lsDivOf (totalDivider s.opFreq s.opDcoMin),
    ⟨(hle_iff _).1 le_rfl, fun k => (hle_iff k).2⟩, totalDivider_le hfreq s.opDcoMin, ?_, hls,
    hhs.trans (hsDivOf_eq _)⟩
  obtain hlt | hge := Nat.lt_or_ge (totalDivider s.opFreq s.opDcoMin) 2046
  · exact .inl ⟨hlt, lsDivOf_of_lt hlt⟩
  · obtain ⟨hfive, hle⟩ := (le_lsDivOf_iff hge _).1 le_rfl
    exact .inr ⟨hle, hfive, fun k hk hkFive => (le_lsDivOf_iff hge k).2 ⟨hkFive, hk⟩⟩

/-- The ranges of R124 for a total divider. -/
theorem split_ranges (t : Nat) :
    (lsDivOf t = 0 → hsDivOf t ≤ 4092) ∧
    (1 ≤ lsDivOf t → lsDivOf t ≤ 4 → 2046 ≤ hsDivOf t ∧ hsDivOf t ≤ 4091) ∧
    (lsDivOf t = 5 → 2046 ≤ hsDivOf t) ∧ (2046 < t → 2046 ≤ hsDivOf t) := by
  obtain ⟨hls, hlt, hhs⟩ | ⟨⟨hone, hfour⟩, hlow, hhigh, hhs⟩ | ⟨hls, hge, hhs⟩ := split_cases t
  · split at hhs <;> omega
  · have hbounds := hsDiv_mid_bounds hlow hhigh
    omega
  · omega

/-- Settles O29: the ranges of `split_ranges`, in the registers. -/
theorem s549DividerRanges : Obligations.S549DividerRanges := by
  unfold Obligations.S549DividerRanges
  intro s hfam hfreq
  refine ⟨_, exec_s549div_eq hfam, ?_⟩
  obtain ⟨hhs, hls⟩ := s549Dividers_toNat hfreq s.opDcoMin
  simp only [complete_s549, writeS549Dividers_s549, holding_word, hhs, hls]
  have hmax := hsDivOf_le (totalDivider_le hfreq s.opDcoMin)
  obtain ⟨hzero, hmid, hfive, hbig⟩ := split_ranges (totalDivider s.opFreq s.opDcoMin)
  exact ⟨lsDivOf_le_five _, hmax, hzero, hmid, fun h => ⟨hfive h, hmax⟩, hbig⟩

/-! ### S549FBDIV -/

theorem exec_s549fbdiv_eq {s : State} (hfam : s.family = .si549) :
    exec .s549fbdiv s =
      .next (s.writeFbDiv (fbdivValue s.opFreq s.opXtal s.opHsDiv s.opLsDiv)).complete :=
  exec_s549fbdiv s hfam

theorem fbdivValue_of_wide {hsDiv : BitVec 16} {lsDiv : BitVec 3} (hwide : 2 ^ 16 ≤ hsDiv.toNat * 2 ^ lsDiv.toNat)
    (freq xtal : BitVec 32) : fbdivValue freq xtal hsDiv lsDiv = Config.fbdivOod freq xtal hsDiv lsDiv :=
  if_pos hwide

/-- The VCO frequency of R125, where the divider product fits 16 bits. -/
def vcoOf (freq : BitVec 32) (hsDiv : BitVec 16) (lsDiv : BitVec 3) : BitVec 48 :=
  mulw freq (BitVec.ofNat 16 (dividerProduct hsDiv lsDiv))

theorem vcoOf_toNat {hsDiv : BitVec 16} {lsDiv : BitVec 3} (hfits : hsDiv.toNat * 2 ^ lsDiv.toNat < 2 ^ 16)
    (freq : BitVec 32) : (vcoOf freq hsDiv lsDiv).toNat = freq.toNat * (hsDiv.toNat * 2 ^ lsDiv.toNat) := by
  rw [vcoOf, mulw_toNat, BitVec.toNat_ofNat, dividerProduct, Nat.mod_eq_of_lt hfits]

theorem fbdivValue_of_fits {hsDiv : BitVec 16} {lsDiv : BitVec 3} (hfits : hsDiv.toNat * 2 ^ lsDiv.toNat < 2 ^ 16)
    (freq xtal : BitVec 32) :
    fbdivValue freq xtal hsDiv lsDiv = (divwTotal (vcoOf freq hsDiv lsDiv) xtal 35#6).setWidth 43 :=
  if_neg (Nat.not_le.2 hfits)

/-- Settles O30: the divider product decides between the two values, and then the domain of the divide. -/
theorem fbdivStoresTheRatio : Obligations.FbdivStoresTheRatio := by
  unfold Obligations.FbdivStoresTheRatio
  refine ⟨fun s hfam => ⟨_, exec_s549fbdiv_eq hfam, rfl, statusDone_eq, rfl,
    fun hwide => fbdivValue_of_wide hwide _ _, fun hfits => ?_⟩, decode_of_encode_eq rfl (by decide)⟩
  have hdomain := divwDomain_iff (vcoOf s.opFreq s.opHsDiv s.opLsDiv) s.opXtal 35#6
  simp only [complete_s549, writeFbDiv_s549, holding_word, fbdivValue_of_fits hfits]
  exact ⟨_, vcoOf_toNat hfits s.opFreq, fun hin => divwTotal_setWidth_toNat (hdomain.2 hin) 43,
    fun hout => congrArg (BitVec.setWidth 43) (divwTotal_eq_ood (mt hdomain.1 hout))⟩

/-- The divider product is wider than 16 bits exactly for a total divider of at least 65536, which makes LSDIV 5. -/
theorem wide_product_iff (t : Nat) :
    (2 ^ 16 ≤ hsDivOf t * 2 ^ lsDivOf t ↔ lsDivOf t = 5 ∧ 2048 ≤ hsDivOf t) ∧
    (2 ^ 16 ≤ hsDivOf t * 2 ^ lsDivOf t ↔ 65536 ≤ t) := by
  obtain ⟨hls, hlt, hhs⟩ | ⟨⟨hone, hfour⟩, hlow, hhigh, hhs⟩ | ⟨hls, hge, hhs⟩ := split_cases t
  · rw [hls, pow_zero, Nat.mul_one]
    split at hhs <;> omega
  · have hproduct : hsDivOf t * 2 ^ lsDivOf t ≤ t := by
      rw [hhs]
      exact Nat.div_mul_le_self t _
    have hpow : 2 ^ lsDivOf t ≤ 2 ^ 4 := Nat.pow_le_pow_right (by decide) hfour
    omega
  · rw [hls, hhs]
    omega

/-- Settles O31: the product of the two registers is that of `wide_product_iff`, and S549FBDIV reads those registers. -/
theorem wideDividerProductIsUnspecified : Obligations.WideDividerProductIsUnspecified := by
  unfold Obligations.WideDividerProductIsUnspecified
  intro s hfam hfreq
  refine ⟨_, exec_s549div_eq hfam, ?_⟩
  obtain ⟨hhs, hls⟩ := s549Dividers_toNat hfreq s.opDcoMin
  obtain ⟨hlsFive, hbig⟩ := wide_product_iff (totalDivider s.opFreq s.opDcoMin)
  rw [← hhs, ← hls] at hlsFive hbig
  exact ⟨hlsFive, hbig, fun hwide => ⟨_, exec_s549fbdiv_eq hfam, statusDone_eq, fbdivValue_of_wide hwide _ _⟩⟩

end Sys2Proof.Machine
end

section
/-! PROOFS. The reference algorithms of 40_widearith.md section 4 (log 17): the partial sum of shift-and-add is the
product with the low bits of `b`, and the registers of the restoring division are remainder and quotient of the bits of
`x · 2^f` taken in so far. -/

namespace Sys2Proof.Machine

/-! ### Shift and add -/

/-- The partial sum after `n` turns. -/
def mulwRefSum (a : BitVec 32) (b : BitVec 16) (n : Nat) : BitVec 48 :=
  (List.range n).foldl (fun p i => if b.getLsbD i then p + (a.setWidth 48 <<< i) else p) 0

theorem mulwRef_eq_sum (a : BitVec 32) (b : BitVec 16) : mulwRef a b = mulwRefSum a b 16 := rfl

theorem mulwRefSum_succ (a : BitVec 32) (b : BitVec 16) (n : Nat) : mulwRefSum a b (n + 1) =
    if b.getLsbD n then mulwRefSum a b n + (a.setWidth 48 <<< n) else mulwRefSum a b n := by
  rw [mulwRefSum, List.range_succ, List.foldl_append]
  rfl

theorem shiftedAddend_eq (a : BitVec 32) (n : Nat) : a.setWidth 48 <<< n = BitVec.ofNat 48 (a.toNat * 2 ^ n) := by
  apply BitVec.eq_of_toNat_eq
  rw [BitVec.toNat_shiftLeft, BitVec.toNat_setWidth_of_le (by decide), Nat.shiftLeft_eq, BitVec.toNat_ofNat]

/-- After `n` turns the low `n` bits of `b` have been multiplied in. -/
theorem mulwRefSum_eq (a : BitVec 32) (b : BitVec 16) (n : Nat) :
    mulwRefSum a b n = BitVec.ofNat 48 (a.toNat * (b.toNat % 2 ^ n)) := by
  induction n with
  | zero => rw [pow_zero, Nat.mod_one, Nat.mul_zero]; rfl
  | succ n ih =>
    rw [mulwRefSum_succ, ih, shiftedAddend_eq, Nat.mod_pow_succ, ← Nat.toNat_testBit, BitVec.testBit_toNat, Nat.mul_add]
    cases b.getLsbD n with
    | false => simp
    | true => rw [if_pos rfl, ← BitVec.ofNat_add]; simp

/-- Settles O15: after 16 turns all of `b` has been multiplied in. -/
theorem shiftAndAddComputesTheProduct : Obligations.ShiftAndAddComputesTheProduct := by
  unfold Obligations.ShiftAndAddComputesTheProduct
  intro a b
  rw [mulwRef_eq_sum, mulwRefSum_eq, Nat.mod_eq_of_lt b.isLt, mulw]

/-! ### One turn of the restoring division -/

/-- The bit that a turn takes in is the next one of `x · 2^f`. -/
theorem dividendBit_eq (x : BitVec 48) (f n : Nat) :
    (decide (f ≤ n) && x.getLsbD (n - f)) = (x.toNat * 2 ^ f).testBit n := by
  rw [Nat.testBit_mul_two_pow, BitVec.testBit_toNat]

/-- A shift by one that takes in a bit doubles the number and adds the bit. -/
theorem toNat_shiftIn {w : Nat} (hw : 0 < w) (v : BitVec w) (bit : Bool) :
    ((v <<< 1) ||| (BitVec.ofBool bit).setWidth w).toNat = (2 * v.toNat + bit.toNat) % 2 ^ w := by
  have hdisjoint : (v <<< 1) &&& (BitVec.ofBool bit).setWidth w = 0#w := by
    ext i hi
    cases i <;> simp
  rw [← BitVec.add_eq_or_of_and_eq_zero _ _ hdisjoint, BitVec.toNat_add, BitVec.toNat_shiftLeft,
    BitVec.toNat_setWidth_of_le hw, Nat.mod_add_mod, Nat.shiftLeft_eq, Nat.mul_comm]
  cases bit <;> rfl

/-- The remainder with the next bit taken in, which a turn compares with the divisor. -/
def DivRefState.shiftedRem (st : DivRefState) (bit : Bool) : BitVec 33 :=
  (st.rem <<< 1) ||| (BitVec.ofBool bit).setWidth 33

theorem divRefTurn_of_le {d : BitVec 32} {bit : Bool} {st : DivRefState} (h : d.setWidth 33 ≤ st.shiftedRem bit) :
    divRefTurn d bit st = { rem := st.shiftedRem bit - d.setWidth 33, q := st.q <<< 1 ||| 1 } :=
  if_pos h

theorem divRefTurn_of_not_le {d : BitVec 32} {bit : Bool} {st : DivRefState} (h : ¬ d.setWidth 33 ≤ st.shiftedRem bit) :
    divRefTurn d bit st = { rem := st.shiftedRem bit, q := st.q <<< 1 } :=
  if_neg h

/-- The registers after the bits of `y` have been taken in. -/
def DividedSoFar (d : BitVec 32) (y : Nat) (st : DivRefState) : Prop :=
  st.rem.toNat = y % d.toNat ∧ st.q.toNat = y / d.toNat % 2 ^ 48

/-- The long division of `2 · y + bit`, from that of `y`: the divisor goes once more where it fits. -/
theorem divMod_shiftIn (y : Nat) {d : Nat} (hd : 0 < d) (bit : Bool) :
    (d ≤ 2 * (y % d) + bit.toNat →
      (2 * y + bit.toNat) / d = 2 * (y / d) + 1 ∧ (2 * y + bit.toNat) % d = 2 * (y % d) + bit.toNat - d) ∧
    (2 * (y % d) + bit.toNat < d →
      (2 * y + bit.toNat) / d = 2 * (y / d) ∧ (2 * y + bit.toNat) % d = 2 * (y % d) + bit.toNat) := by
  have hy := Nat.mod_add_div y d
  have hrem := Nat.mod_lt y hd
  have hbit := bit.toNat_le
  constructor
  · intro hfits
    refine (Nat.div_mod_unique hd).2 ⟨?_, by omega⟩
    rw [Nat.mul_add, Nat.mul_left_comm]
    omega
  · intro hless
    refine (Nat.div_mod_unique hd).2 ⟨?_, hless⟩
    rw [Nat.mul_left_comm]
    omega

/-- Doubling a remainder of at most 32 bits loses nothing in the 33-bit register. -/
theorem toNat_shiftedRem {d : BitVec 32} (hd : d ≠ 0) {y : Nat} {st : DivRefState}
    (hrem : st.rem.toNat = y % d.toNat) (bit : Bool) :
    (st.shiftedRem bit).toNat = 2 * (y % d.toNat) + bit.toNat := by
  have hlt := Nat.mod_lt y (toNat_pos_of_ne_zero hd)
  have hdlt := d.isLt
  have hbit := bit.toNat_le
  rw [DivRefState.shiftedRem, toNat_shiftIn (by decide), hrem, Nat.mod_eq_of_lt (by omega)]

/-- The quotient register shifted by one, with the new quotient bit. -/
theorem toNat_quotient_shiftIn (q : BitVec 48) :
    (q <<< 1).toNat = 2 * q.toNat % 2 ^ 48 ∧ (q <<< 1 ||| 1).toNat = (2 * q.toNat + 1) % 2 ^ 48 :=
  ⟨by rw [BitVec.toNat_shiftLeft, Nat.shiftLeft_eq, Nat.mul_comm], toNat_shiftIn (by decide) q true⟩

theorem dividedSoFar_turn {d : BitVec 32} (hd : d ≠ 0) {y : Nat} {st : DivRefState} (h : DividedSoFar d y st)
    (bit : Bool) : DividedSoFar d (2 * y + bit.toNat) (divRefTurn d bit st) := by
  obtain ⟨hrem, hq⟩ := h
  have hshift := toNat_shiftedRem hd hrem bit
  obtain ⟨hdouble, hdoubleOne⟩ := toNat_quotient_shiftIn st.q
  obtain ⟨hfits, hless⟩ := divMod_shiftIn y (toNat_pos_of_ne_zero hd) bit
  have hdwide : (d.setWidth 33).toNat = d.toNat := BitVec.toNat_setWidth_of_le (by decide)
  by_cases hle : d.setWidth 33 ≤ st.shiftedRem bit
  · have hdiv := hle
    rw [BitVec.le_def, hdwide, hshift] at hdiv
    obtain ⟨hquot, hmod⟩ := hfits hdiv
    rw [divRefTurn_of_le hle, DividedSoFar, BitVec.toNat_sub_of_le hle, hshift, hdwide, hdoubleOne, hquot, hmod, hq]
    exact ⟨rfl, by omega⟩
  · have hdiv := hle
    rw [BitVec.le_def, hdwide, hshift, Nat.not_le] at hdiv
    obtain ⟨hquot, hmod⟩ := hless hdiv
    rw [divRefTurn_of_not_le hle, DividedSoFar, hshift, hdouble, hquot, hmod, hq]
    exact ⟨rfl, by omega⟩

/-! ### The loop -/

theorem shiftIn_dividendBit (y n : Nat) : 2 * (y / 2 ^ (n + 1)) + (y.testBit n).toNat = y / 2 ^ n := by
  rw [Nat.toNat_testBit, Nat.pow_succ, ← Nat.div_div_eq_div_mul]
  exact Nat.div_add_mod _ 2

theorem dividedSoFar_loop {x : BitVec 48} {d : BitVec 32} (hd : d ≠ 0) {f : Nat} (n : Nat) {st : DivRefState}
    (h : DividedSoFar d (x.toNat * 2 ^ f / 2 ^ n) st) :
    DividedSoFar d (x.toNat * 2 ^ f) (divRefLoop x d f n st) := by
  induction n generalizing st with
  | zero => rwa [pow_zero, Nat.div_one] at h
  | succ n ih =>
    have hturn := dividedSoFar_turn hd h (decide (f ≤ n) && x.getLsbD (n - f))
    rw [dividendBit_eq, shiftIn_dividendBit] at hturn
    rw [divRefLoop, dividendBit_eq]
    exact ih hturn

/-- For every divisor but 0 the loop computes the low 48 bits of the quotient. -/
theorem divwRef_toNat (x : BitVec 48) {d : BitVec 32} (hd : d ≠ 0) (f : BitVec 6) :
    (divwRef x d f).toNat = wideQuotient x d f % 2 ^ 48 := by
  have hall : x.toNat * 2 ^ f.toNat / 2 ^ (48 + f.toNat) = 0 := by
    rw [Nat.pow_add, Nat.mul_div_mul_right _ _ (Nat.two_pow_pos _), Nat.div_eq_of_lt x.isLt]
  have hstart : DividedSoFar d (x.toNat * 2 ^ f.toNat / 2 ^ (48 + f.toNat)) { rem := 0, q := 0 } := by
    rw [hall]
    exact ⟨(Nat.zero_mod _).symm, by rw [Nat.zero_div]; rfl⟩
  obtain ⟨-, hq⟩ := dividedSoFar_loop hd (48 + f.toNat) hstart
  exact hq

/-! ### The divisor 0 -/

/-- With the divisor 0 every turn subtracts, and shifts a one into the quotient. -/
theorem divRefTurn_zero_q (bit : Bool) (st : DivRefState) : (divRefTurn 0 bit st).q = st.q <<< 1 ||| 1 := by
  have hle : (0 : BitVec 32).setWidth 33 ≤ st.shiftedRem bit := Nat.zero_le _
  rw [divRefTurn_of_le hle]

theorem divRefLoop_zero_q (x : BitVec 48) (f n : Nat) (st : DivRefState) :
    (divRefLoop x 0 f n st).q.toNat + 1 ≡ (st.q.toNat + 1) * 2 ^ n [MOD 2 ^ 48] := by
  induction n generalizing st with
  | zero => rw [pow_zero, Nat.mul_one]; rfl
  | succ n ih =>
    obtain ⟨-, hdoubleOne⟩ := toNat_quotient_shiftIn st.q
    rw [divRefLoop]
    refine (ih _).trans ?_
    rw [divRefTurn_zero_q, hdoubleOne, Nat.pow_succ' (n := n), ← Nat.mul_assoc]
    refine Nat.ModEq.mul_right _ ?_
    change ((2 * st.q.toNat + 1) % 2 ^ 48 + 1) % 2 ^ 48 = (st.q.toNat + 1) * 2 % 2 ^ 48
    omega

theorem divwRef_zero (x : BitVec 48) (f : BitVec 6) : divwRef x 0 f = BitVec.allOnes 48 := by
  have hmod : (divwRef x 0 f).toNat + 1 ≡ (0 + 1) * 2 ^ (48 + f.toNat) [MOD 2 ^ 48] :=
    divRefLoop_zero_q x f.toNat (48 + f.toNat) { rem := 0, q := 0 }
  have hzero : (divwRef x 0 f).toNat + 1 ≡ 0 [MOD 2 ^ 48] := by
    refine hmod.trans ?_
    rw [Nat.pow_add, Nat.mul_left_comm]
    exact (Nat.modEq_zero_iff_dvd).2 (Nat.dvd_mul_right _ _)
  have hlt := (divwRef x 0 f).isLt
  apply BitVec.eq_of_toNat_eq
  rw [BitVec.toNat_allOnes]
  change ((divwRef x 0 f).toNat + 1) % 2 ^ 48 = 0 % 2 ^ 48 at hzero
  omega

/-- Settles O16: in the domain the quotient is below 2^48, so its low 48 bits are all of it. -/
theorem restoringDivisionComputesTheQuotient : Obligations.RestoringDivisionComputesTheQuotient := by
  unfold Obligations.RestoringDivisionComputesTheQuotient
  intro x d f
  refine ⟨fun hdom => ?domain, fun hd => divwRef_toNat x hd f, ?zero⟩
  case domain =>
    obtain ⟨hd, hfits⟩ := id hdom
    apply BitVec.eq_of_toNat_eq
    rw [divwRef_toNat x hd f, divwTotal_toNat hdom, Nat.mod_eq_of_lt hfits]
  case zero =>
    rintro rfl
    exact divwRef_zero x f

end Sys2Proof.Machine
end
